-- ==== Sys2Proof/Word.lean ====
section
/-! DEFINITION. The data types of CORE (00_scope.md R11 to R13, 10_state.md R26 to R30): bytes, Blocks, AES States,
key-schedule words, offsets. DES BitVectors are `BitVec n`; position 1 of the spec is the most significant bit. -/

namespace Sys2Proof

/-- A byte, 0..255 (R11). Bit 0 is the least significant (R12). -/
abbrev Byte := BitVec 8

/-- A 16-byte Block, byte 0 first (R13). A DES block is bytes 0..7 of one. -/
abbrev Block := Vector Byte 16

/-- The AES State: `S[r][c]` is row `r`, column `c` (R27). -/
abbrev AesState := Vector (Vector Byte 4) 4

/-- A word of the AES key schedule: four bytes, byte 0 first, never a number (R63). -/
abbrev KeyWord := Vector Byte 4

/-- A micro-op word of format U (R90). -/
abbrev UWord := BitVec 16

/-- A byte offset in the host register space, 0x000..0x1FF (R60). -/
abbrev Offset := BitVec 9

/-- A text: a finite sequence of character codes (R260). -/
abbrev Text := List Nat

/-- The 16 zero bytes. -/
def zeroBlock : Block := Vector.replicate 16 0#8

/-- The zero State. -/
def zeroAes : AesState := Vector.replicate 4 (Vector.replicate 4 0#8)

/-- A Step record of the trace memory (R32). The text fields `name` and `description` of the source are not stored. -/
structure StepRecord where
  /-- the micro-op word that produced the record -/
  uop : UWord
  /-- the working state before the micro-op, as a Block -/
  before : Block
  /-- the working state after the micro-op, as a Block -/
  after : Block
  /-- ADDRK: the round key used; else zero -/
  aux_rk : Block
  /-- DROUND: the subkey used; else zero -/
  aux_sk : BitVec 48
  /-- DROUND: the expanded bits; else zero -/
  aux_e : BitVec 48
  /-- DROUND: the post-XOR bits; else zero -/
  aux_x : BitVec 48
  /-- DROUND: the eight S-box outputs, box 1 first; else zero -/
  aux_sb : BitVec 32
  /-- DROUND: the Feistel function's output; else zero -/
  aux_f : BitVec 32
deriving DecidableEq, Repr, Inhabited

/-- The Feistel function's result and its three intermediate values (R206). -/
structure FeistelOut where
  /-- the expanded bits -/
  e : BitVec 48
  /-- the post-XOR bits -/
  x : BitVec 48
  /-- the eight S-box outputs -/
  sb : BitVec 32
  /-- the output of permutation P -/
  fo : BitVec 32
deriving DecidableEq, Repr

end Sys2Proof
end

