-- ==== Sys2Proof/Machine/Gf.lean ====
section
/-! DEFINITION. Galois field arithmetic (40_gf_arithmetic.md). -/

namespace Sys2Proof.Machine

/-- Doubling with reduction by 0x1B if the top bit was set (R121). -/
def xtime (a : Byte) : Byte := (a <<< 1) ^^^ (if a.getLsbD 7 then 0x1B#8 else 0x00#8)

/-- One of the eight bit positions of `gmul`'s loop: the accumulator `p` and the running multiple `a` (R122). -/
def gmulStep (b : Byte) (pa : Byte × Byte) (k : Nat) : Byte × Byte :=
  (if b.getLsbD k then pa.1 ^^^ pa.2 else pa.1, xtime pa.2)

/-- Carry-less multiplication in GF(2^8), bit positions of `b` from 0 to 7 (R122). -/
def gmul (a b : Byte) : Byte :=
  ([0, 1, 2, 3, 4, 5, 6, 7].foldl (gmulStep b) (0x00#8, a)).1

end Sys2Proof.Machine
end

