-- ==== Sys2Proof/Syntax.lean ====
section
/-! DEFINITION. The instructions: one constructor per row of spec/opcode_table.json (30_encoding.md R91, R94),
and the names a refused encoding is rejected under. -/

namespace Sys2Proof

/-- The algorithm bit: 0 = AES, 1 = DES (R24, R90). -/
inductive Alg
  | aes
  | des
deriving DecidableEq, Repr, Inhabited

/-- The direction bit: 0 = encrypt, 1 = decrypt (R24, R90). -/
inductive Dir
  | encrypt
  | decrypt
deriving DecidableEq, Repr, Inhabited

/-- An instruction. A micro-op that the spec allows in both directions carries its direction; one whose `round`
is not fixed at 0 carries its 5-bit `round` field. A START carries the five bits 7:3 of its byte, which have no
effect (R94). -/
inductive Instr
  | blk2st (dir : Dir)
  | keyexp (dir : Dir)
  | addrk (dir : Dir) (round : BitVec 5)
  | subb (round : BitVec 5)
  | shrow (round : BitVec 5)
  | mixc (round : BitVec 5)
  | isubb (round : BitVec 5)
  | ishrow (round : BitVec 5)
  | imixc (round : BitVec 5)
  | dinput (dir : Dir)
  | dip (dir : Dir)
  | dround (dir : Dir) (round : BitVec 5)
  | dswap (dir : Dir)
  | dfp (dir : Dir)
  | startAesEnc (ignored : BitVec 5)
  | startDesEnc (ignored : BitVec 5)
  | startAesDec (ignored : BitVec 5)
  | startDesDec (ignored : BitVec 5)
deriving DecidableEq, Repr

/-- The bits of one instruction, in its format (R90): a micro-op word or a command byte. -/
inductive Encoded
  | u (w : UWord)
  | c (b : Byte)
deriving DecidableEq, Repr

/-- Why an encoding is no instruction (R94, R97). -/
inductive DecodeError
  /-- a bit of 13:12 or 7:5 is set -/
  | mustBeZero
  /-- an `op` code no mnemonic has -/
  | reservedOp
  /-- a direction the mnemonic does not allow -/
  | dirNotAllowed
  /-- a `round` outside the mnemonic's range -/
  | roundOutOfRange
  /-- a command byte with bit 0 clear: no command, a no-op -/
  | notACommand
deriving DecidableEq, Repr

end Sys2Proof
end

