-- ==== Sys2Proof/WellFormed.lean ====
section
/-! DEFINITION. Which instructions are legal: the (dir, round) ranges of 30_encoding.md R95. -/

namespace Sys2Proof

/-- `lo ≤ round ≤ hi`. -/
def roundIn (lo hi : Nat) (round : BitVec 5) : Bool :=
  decide (lo ≤ round.toNat) && decide (round.toNat ≤ hi)

/-- The legal micro-ops and commands (R95, R94). A micro-op whose `round` is fixed at 0 has no `round` operand
here, and one with a single allowed direction has no `dir` operand, so only the ranges are left to check. -/
def Instr.wf : Instr → Bool
  | .blk2st _ => true
  | .keyexp _ => true
  | .addrk _ round => roundIn 0 10 round
  | .subb round => roundIn 1 10 round
  | .shrow round => roundIn 1 10 round
  | .mixc round => roundIn 1 9 round
  | .isubb round => roundIn 1 10 round
  | .ishrow round => roundIn 1 10 round
  | .imixc round => roundIn 1 9 round
  | .dinput _ => true
  | .dip _ => true
  | .dround _ round => roundIn 1 16 round
  | .dswap _ => true
  | .dfp _ => true
  | .startAesEnc _ => true
  | .startDesEnc _ => true
  | .startAesDec _ => true
  | .startDesDec _ => true

/-- Format U: a micro-op, fetched by the sequencer (R90). The other format is a host command. -/
def Instr.isMicro : Instr → Bool
  | .blk2st _ => true
  | .keyexp _ => true
  | .addrk _ _ => true
  | .subb _ => true
  | .shrow _ => true
  | .mixc _ => true
  | .isubb _ => true
  | .ishrow _ => true
  | .imixc _ => true
  | .dinput _ => true
  | .dip _ => true
  | .dround _ _ => true
  | .dswap _ => true
  | .dfp _ => true
  | .startAesEnc _ => false
  | .startDesEnc _ => false
  | .startAesDec _ => false
  | .startDesDec _ => false

end Sys2Proof
end

