-- ==== Sys2Proof/Decode.lean ====
section
/-! DEFINITION. Decoding of micro-op words and command bytes (30_encoding.md R90 to R97), total, rejecting by name,
and the encoder. -/

namespace Sys2Proof

/-- Bit 15 of a micro-op word, bit 1 of a command byte (R90, R94). -/
def algOfBit : Bool → Alg
  | false => .aes
  | true => .des

/-- Bit 14 of a micro-op word, bit 2 of a command byte (R90, R94). -/
def dirOfBit : Bool → Dir
  | false => .encrypt
  | true => .decrypt

/-- The bit that stands for an algorithm. -/
def bitOfAlg : Alg → Bool
  | .aes => false
  | .des => true

/-- The bit that stands for a direction. -/
def bitOfDir : Dir → Bool
  | .encrypt => false
  | .decrypt => true

/-- An instruction whose `round` is in the mnemonic's range, or the refusal that says it is not (R95). -/
def ifLegal (i : Instr) : Except DecodeError Instr :=
  if i.wf then .ok i else .error .roundOutOfRange

/-- A micro-op whose `round` must be 0 (R95). -/
def ifRoundZero (round : BitVec 5) (i : Instr) : Except DecodeError Instr :=
  if round = 0#5 then .ok i else .error .roundOutOfRange

/-- A micro-op allowed in the direction `want` only (R91). -/
def ifDir (want dir : Dir) (i : Instr) : Except DecodeError Instr :=
  if dir = want then ifLegal i else .error .dirNotAllowed

/-- The AES operation codes (R91). -/
def decodeAesOp (dir : Dir) (op : Nat) (round : BitVec 5) : Except DecodeError Instr :=
  match op with
  | 0 => ifRoundZero round (.blk2st dir)
  | 1 => ifRoundZero round (.keyexp dir)
  | 2 => ifLegal (.addrk dir round)
  | 3 => ifDir .encrypt dir (.subb round)
  | 4 => ifDir .encrypt dir (.shrow round)
  | 5 => ifDir .encrypt dir (.mixc round)
  | 6 => ifDir .decrypt dir (.isubb round)
  | 7 => ifDir .decrypt dir (.ishrow round)
  | 8 => ifDir .decrypt dir (.imixc round)
  | _ => .error .reservedOp

/-- The DES operation codes (R91). -/
def decodeDesOp (dir : Dir) (op : Nat) (round : BitVec 5) : Except DecodeError Instr :=
  match op with
  | 0 => ifRoundZero round (.dinput dir)
  | 1 => ifRoundZero round (.dip dir)
  | 2 => ifLegal (.dround dir round)
  | 3 => ifRoundZero round (.dswap dir)
  | 4 => ifRoundZero round (.dfp dir)
  | _ => .error .reservedOp

/-- A 16-bit micro-op word `ad00oooo000rrrrr` (R90, R95, R97). -/
def decodeU (w : UWord) : Except DecodeError Instr :=
  if w.extractLsb' 12 2 = 0#2 ∧ w.extractLsb' 5 3 = 0#3 then
    match algOfBit (w.getLsbD 15) with
    | .aes => decodeAesOp (dirOfBit (w.getLsbD 14)) (w.extractLsb' 8 4).toNat (w.extractLsb' 0 5)
    | .des => decodeDesOp (dirOfBit (w.getLsbD 14)) (w.extractLsb' 8 4).toNat (w.extractLsb' 0 5)
  else .error .mustBeZero

/-- The algorithm and direction that a byte written to `CTRL` starts, `-----da1`; none if bit 0 is clear (R35, R94). -/
def commandFields (b : Byte) : Option (Alg × Dir) :=
  if b.getLsbD 0 then some (algOfBit (b.getLsbD 1), dirOfBit (b.getLsbD 2)) else none

/-- A command byte `-----da1` (R94). Bit 0 clear is no command. -/
def decodeC (b : Byte) : Except DecodeError Instr :=
  match commandFields b with
  | some (.aes, .encrypt) => .ok (.startAesEnc (b.extractLsb' 3 5))
  | some (.des, .encrypt) => .ok (.startDesEnc (b.extractLsb' 3 5))
  | some (.aes, .decrypt) => .ok (.startAesDec (b.extractLsb' 3 5))
  | some (.des, .decrypt) => .ok (.startDesDec (b.extractLsb' 3 5))
  | none => .error .notACommand

/-- The decoder over both formats. -/
def decode : Encoded → Except DecodeError Instr
  | .u w => decodeU w
  | .c b => decodeC b

/-- The micro-op word with the given fields (R90). -/
def packU (alg : Alg) (dir : Dir) (op : BitVec 4) (round : BitVec 5) : UWord :=
  BitVec.ofBool (bitOfAlg alg) ++ BitVec.ofBool (bitOfDir dir) ++ 0#2 ++ op ++ 0#3 ++ round

/-- The command byte with the given fields (R94). -/
def packC (alg : Alg) (dir : Dir) (ignored : BitVec 5) : Byte :=
  ignored ++ BitVec.ofBool (bitOfDir dir) ++ BitVec.ofBool (bitOfAlg alg) ++ 1#1

/-- The encoder, from the operation codes of R91 and the words of R95 and R94. -/
def encode : Instr → Encoded
  | .blk2st dir => .u (packU .aes dir 0 0)
  | .keyexp dir => .u (packU .aes dir 1 0)
  | .addrk dir round => .u (packU .aes dir 2 round)
  | .subb round => .u (packU .aes .encrypt 3 round)
  | .shrow round => .u (packU .aes .encrypt 4 round)
  | .mixc round => .u (packU .aes .encrypt 5 round)
  | .isubb round => .u (packU .aes .decrypt 6 round)
  | .ishrow round => .u (packU .aes .decrypt 7 round)
  | .imixc round => .u (packU .aes .decrypt 8 round)
  | .dinput dir => .u (packU .des dir 0 0)
  | .dip dir => .u (packU .des dir 1 0)
  | .dround dir round => .u (packU .des dir 2 round)
  | .dswap dir => .u (packU .des dir 3 0)
  | .dfp dir => .u (packU .des dir 4 0)
  | .startAesEnc ignored => .c (packC .aes .encrypt ignored)
  | .startDesEnc ignored => .c (packC .des .encrypt ignored)
  | .startAesDec ignored => .c (packC .aes .decrypt ignored)
  | .startDesDec ignored => .c (packC .des .decrypt ignored)

/-- The instruction's bits as one 16-bit number: what a Step record stores as `uop` (R32). -/
def uopOf (i : Instr) : UWord :=
  match encode i with
  | .u w => w
  | .c b => b.setWidth 16

/-- What the decoder reads from a table word of `nbits` bits: 8 is a command byte, 16 a micro-op word, no other
width is an instruction (R90, R98; log 10). -/
def decodeTableWord (nbits w : Nat) : Option Instr :=
  match nbits with
  | 8 => (decodeC (BitVec.ofNat 8 w)).toOption
  | 16 => (decodeU (BitVec.ofNat 16 w)).toOption
  | _ => none

end Sys2Proof
end

