-- ==== Sys2Proof/Machine/State.lean ====
section
/-! DEFINITION. The state of one CORE instance (10_state.md R21 to R33), the environment's turns, the reasons a
step can stop, and the state after reset (R40). -/

namespace Sys2Proof.Machine

/-- The phase machine (R22). -/
inductive Phase
  | idle
  | busy
  | done
deriving DecidableEq, Repr, Inhabited

/-- What happens next, chosen outside the machine (R20, R300, R240; log 4): the sequencer's turn, a host access of
one byte, or the reset line. -/
inductive Turn
  | sequencer
  | read (off : Offset)
  | write (off : Offset) (b : Byte)
  | reset
deriving DecidableEq, Repr

/-- A byte the host has read (log 5). -/
structure HostRead where
  off : Offset
  value : Byte
deriving DecidableEq, Repr

/-- All of CORE's state under the spec's own names (R21), then the model's own three fields. -/
structure State where
  /-- R22 -/
  phase : Phase
  /-- R23 -/
  pc : BitVec 6
  /-- R24 -/
  ALG_L : Alg
  /-- R24 -/
  DIR_L : Dir
  /-- R25, R38 -/
  TIDX : BitVec 6
  /-- R26 -/
  MSG : Block
  /-- R26 -/
  KEY : Block
  /-- R27 -/
  S : AesState
  /-- R28 -/
  V : BitVec 64
  /-- R29 -/
  RK : Vector AesState 11
  /-- R30 -/
  SK : Vector (BitVec 48) 16
  /-- R31, R32 -/
  TRACE : Vector StepRecord 42
  /-- R33 -/
  OUT : Block
  /-- the environment's turns, the next one first; empty: every further turn is the sequencer's (log 4) -/
  turns : List Turn
  /-- what the host has read, newest first (log 5) -/
  reads : List HostRead
  /-- how many free values have been drawn (log 3) -/
  draws : Nat
deriving DecidableEq, Repr

/-- The causes a step can stop with a fault for. CORE's set of exception causes is empty (R280), so this type has no
constructor: no outcome of the machine is a fault. Safe. -/
inductive Fault
deriving DecidableEq, Repr

/-- The machine refuses an instruction. -/
inductive Refusal
  /-- Raised by `exec`'s arm of an instruction without a meaning. Safe. -/
  | notModelled (mnemonic : String)
  /-- Raised by a micro-op whose word is reserved (R97: "a model's step function refuses a reserved word"). No
  START reaches one. Safe. -/
  | reservedWord (w : UWord)
deriving DecidableEq, Repr

/-- A Step record of zeros (R32). -/
def zeroRecord : StepRecord where
  uop := 0
  before := zeroBlock
  after := zeroBlock
  aux_rk := zeroBlock
  aux_sk := 0
  aux_e := 0
  aux_x := 0
  aux_sb := 0
  aux_f := 0

/-- The machine right after reset (R40, R300). The spec states the first seven fields; `S`, `V`, `RK`, `SK`, `TRACE`
and `OUT` are unspecified there and zero here (DESIGN CHOICE, unsafe: log 1). -/
def State.reset : State where
  phase := .idle
  pc := 0
  ALG_L := .aes
  DIR_L := .encrypt
  TIDX := 0
  MSG := zeroBlock
  KEY := zeroBlock
  S := zeroAes
  V := 0
  RK := Vector.replicate 11 zeroAes
  SK := Vector.replicate 16 0
  TRACE := Vector.replicate 42 zeroRecord
  OUT := zeroBlock
  turns := []
  reads := []
  draws := 0

end Sys2Proof.Machine
end

