-- ==== Sys2Proof/Machine/Operands.lean ====
section
/-! DEFINITION. How data is laid out and addressed: Blocks and AES States (20_memory.md R61, R62), DES BitVectors and
their packing (R64), table application (00_scope.md R15), and the key index of a micro-op (30_encoding.md R93). -/

namespace Sys2Proof.Machine

/-- Byte `i` of a Block; 0 outside it, which no rule asks for (log 19). -/
def byteOf (b : Block) (i : Nat) : Byte := b[i]?.getD 0#8

/-- The AES State whose byte at row `r`, column `c` is `f r c`. -/
def buildAes (f : Fin 4 → Fin 4 → Byte) : AesState :=
  Vector.ofFn fun r => Vector.ofFn fun c => f r c

/-- The Block whose byte `i` is `f i`. -/
def buildBlock (f : Fin 16 → Byte) : Block := Vector.ofFn f

/-- `S[r][c] = B[r + 4*c]` (R130). -/
def blockToState (B : Block) : AesState :=
  buildAes fun r c => B[r.val + 4 * c.val]

/-- `B[r + 4*c] = S[r][c]` (R131), that is `B[i] = S[i mod 4][i / 4]`. -/
def stateToBlock (S : AesState) : Block :=
  buildBlock fun i => S[i.val % 4][i.val / 4]

/-- The BitVector of length `n` whose bit at position `p` (1-indexed, position 1 leftmost, R13) is `f p`. -/
def ofPositions (n : Nat) (f : Nat → Bool) : BitVec n :=
  (List.range n).foldl (fun acc j => acc.shiftConcat (f (j + 1))) 0#n

/-- `V[p]`, 1-indexed, position 1 leftmost (R13). -/
def bitAt {n : Nat} (V : BitVec n) (p : Nat) : Bool := V.getMsbD (p - 1)

/-- `permute(T, V)[j] = V[T[j]]` for `j` in 1..`m`, where `m` is the length of `T` (R15, R190). -/
def permute {n : Nat} (m : Nat) (T : List Nat) (V : BitVec n) : BitVec m :=
  ofPositions m fun j => bitAt V (T.getD (j - 1) 0)

/-- `bits(B[0..7])`: eight bytes to 64 bits, most significant bit of byte 0 first (R64). -/
def bitsOf8 (B : Block) : BitVec 64 :=
  byteOf B 0 ++ byteOf B 1 ++ byteOf B 2 ++ byteOf B 3 ++ byteOf B 4 ++ byteOf B 5 ++ byteOf B 6 ++ byteOf B 7

/-- `bytes(V)[i]`: the byte at positions `8*i + 1 .. 8*i + 8` of `V`, first bit most significant (R64). -/
def packedByte {n : Nat} (V : BitVec n) (i : Nat) : Byte := V.extractLsb' (n - 8 * (i + 1)) 8

/-- The image of the DES working vector: `bytes(V)` in bytes 0..7, zero in bytes 8..15 (R32, R104). -/
def desImage (V : BitVec 64) : Block :=
  buildBlock fun i => if i.val < 8 then packedByte V i.val else 0#8

/-- The key index of ADDRK (R93). -/
def addrkKidx (dir : Dir) (round : BitVec 5) : Nat :=
  match dir with
  | .encrypt => round.toNat
  | .decrypt => 10 - round.toNat

/-- The key index of DROUND (R93). -/
def droundKidx (dir : Dir) (round : BitVec 5) : Nat :=
  match dir with
  | .encrypt => round.toNat - 1
  | .decrypt => 16 - round.toNat

/-- Read `RK[k]`. Every legal word's `kidx` is in range (R95, log 19). -/
def readRK (s : State) (k : Nat) : AesState := s.RK[k]?.getD zeroAes

/-- Read `SK[k]`. Every legal word's `kidx` is in range (R95, log 19). -/
def readSK (s : State) (k : Nat) : BitVec 48 := s.SK[k]?.getD 0

/-- Read `TRACE[t]` (log 7, log 19). -/
def readTRACE (s : State) (t : Nat) : StepRecord := s.TRACE[t]?.getD zeroRecord

end Sys2Proof.Machine
end

