-- ==== Sys2Proof/Machine/AesFunctions.lean ====
section
/-! DEFINITION. The AES primitives as pure functions on States (41_aes_primitives.md) and the key schedule
(42_aes_key_schedule.md). -/

namespace Sys2Proof.Machine

/-- SubBytes (R136). -/
def subBytes (S : AesState) : AesState := buildAes fun r c => SBOX S[r][c]

/-- InvSubBytes (R137). -/
def invSubBytes (S : AesState) : AesState := buildAes fun r c => INV_SBOX S[r][c]

/-- ShiftRows: `S'[r][c] = S[r][(c + r) mod 4]` (R139). -/
def shiftRows (S : AesState) : AesState := buildAes fun r c => S[r][c + r]

/-- InvShiftRows: `S'[r][c] = S[r][(c - r) mod 4]` (R140). -/
def invShiftRows (S : AesState) : AesState := buildAes fun r c => S[r][c - r]

/-- Each column replaced by the product of the matrix `M` with it, sums by XOR (R142, R144). -/
def mixWith (M : Vector (Vector Byte 4) 4) (S : AesState) : AesState :=
  buildAes fun r c =>
    gmul M[r][0] S[0][c] ^^^ gmul M[r][1] S[1][c] ^^^ gmul M[r][2] S[2][c] ^^^ gmul M[r][3] S[3][c]

/-- MixColumns (R142). -/
def mixColumns (S : AesState) : AesState := mixWith MIX S

/-- InvMixColumns (R144). -/
def invMixColumns (S : AesState) : AesState := mixWith MIX_INV S

/-- AddRoundKey: byte-wise XOR (R145). -/
def addRoundKey (S K : AesState) : AesState := buildAes fun r c => S[r][c] ^^^ K[r][c]

/-- The four bytes `f 0 .. f 3` as a key-schedule word. -/
def buildWord (f : Fin 4 → Byte) : KeyWord := Vector.ofFn f

/-- `W[j] = (K[4j], K[4j+1], K[4j+2], K[4j+3])` for `j` in 0..3 (R160). -/
def rawKeyWord (K : Block) (j : Nat) : KeyWord := buildWord fun b => byteOf K (4 * j + b.val)

/-- `g` at an index divisible by 4: rotate left by one byte, substitute, XOR the round constant into the first byte
(R160, R162). -/
def gWord (i : Nat) (t : KeyWord) : KeyWord :=
  buildWord fun b => SBOX t[b + 1] ^^^ (if b = 0 then RCON.getD (i / 4 - 1) 0 else 0)

/-- `W[i]` from the words before it (R160). -/
def nextKeyWord (W : List KeyWord) (i : Nat) : KeyWord :=
  let zero := buildWord fun _ => 0
  let prev := W.getD (i - 1) zero
  let t := if i % 4 = 0 then gWord i prev else prev
  let back := W.getD (i - 4) zero
  buildWord fun b => back[b] ^^^ t[b]

/-- `W[0 .. n+3]` (R160). -/
def keyWords (K : Block) : Nat → List KeyWord
  | 0 => [rawKeyWord K 0, rawKeyWord K 1, rawKeyWord K 2, rawKeyWord K 3]
  | n + 1 => keyWords K n ++ [nextKeyWord (keyWords K n) (n + 4)]

/-- `W[0..43]` (R160). -/
def keyExpansion (K : Block) : List KeyWord := keyWords K 40

/-- `RK[r][b][c] = W[4r + c][b]`: word `4r + c` is column `c` (R163). -/
def roundKeyOf (W : List KeyWord) (r : Nat) : AesState :=
  buildAes fun b c => (W.getD (4 * r + c.val) (buildWord fun _ => 0))[b]

/-- The eleven round keys of a key (R163, R165). -/
def roundKeys (K : Block) : Vector AesState 11 :=
  let W := keyExpansion K
  Vector.ofFn fun r => roundKeyOf W r.val

end Sys2Proof.Machine
end

