-- ==== Sys2Proof/Config.lean ====
section
/-! DEFINITION. What the spec leaves open (93_implementation_defined.md part 1): the free values, as constants with
no body. Nothing can evaluate one or prove a value of it. -/

namespace Sys2Proof

/-- HEX_ODD_DIGIT: what the lone last digit of an odd-length hex string becomes (U4). -/
inductive OddDigit
  /-- digit d gives byte 0xd0 -/
  | high
  /-- digit d gives byte 0x0d -/
  | low
  /-- the digit is dropped, the byte is 0x00 -/
  | drop
deriving DecidableEq, Repr, Inhabited

/-- The `n`-th byte drawn for a result read before DONE (R70, U1; log 3). -/
opaque Config.freeByte : Nat → Byte

/-- Contents of `S` after the reset event number `n` (R40, U2; log 2). -/
opaque Config.freeS : Nat → AesState

/-- Contents of `V` after a reset event (R40, U2; log 2). -/
opaque Config.freeV : Nat → BitVec 64

/-- Contents of `RK[k]` after a reset event (R40, U2; log 2). -/
opaque Config.freeRK : Nat → Nat → AesState

/-- Contents of `SK[k]` after a reset event (R40, U2; log 2). -/
opaque Config.freeSK : Nat → Nat → BitVec 48

/-- Contents of `OUT` after a reset event (R40, U2; log 2). -/
opaque Config.freeOUT : Nat → Block

/-- Contents of `TRACE[i]` after a reset event (R40, U2; log 2). -/
opaque Config.freeStep : Nat → Nat → StepRecord

/-- CORE_BASE: the system address of offset 0x000 (R71, U9; log 14). -/
opaque Config.CORE_BASE : Nat

/-- TEXT_WIDE_CHAR: the byte of a character code above 255 (R260, U3; log 15). -/
opaque Config.TEXT_WIDE_CHAR : Nat → Byte

/-- HEX_ODD_DIGIT (R264, U4; log 16). -/
opaque Config.HEX_ODD_DIGIT : OddDigit

/-- HEX_BAD_CHAR: byte `i` of the result where its characters hold one that is neither whitespace nor a hex digit: any
value (R264, U5; log 16). The text is the one left after whitespace is removed and letters are raised. -/
opaque Config.HEX_BAD_CHAR : Text → Nat → Byte

end Sys2Proof
end

