-- ==== Sys2Proof/Machine/Flags.lean ====
section
/-! DEFINITION. The status flags and the control registers the host reads (10_state.md R22, R36 to R38). No micro-op
sets or reads a flag; BUSY and DONE are images of `phase`. -/

namespace Sys2Proof.Machine

/-- `BUSY = (phase == BUSY)` (R22). -/
def busyFlag (s : State) : Bool := decide (s.phase = .busy)

/-- `DONE = (phase == DONE)` (R22). -/
def doneFlag (s : State) : Bool := decide (s.phase = .done)

/-- `STATUS`: bit 0 BUSY, bit 1 DONE, bit 2 ALG_L, bit 3 DIR_L, bits 7:4 zero (R37). -/
def statusByte (s : State) : Byte :=
  0#4 ++ BitVec.ofBool (bitOfDir s.DIR_L) ++ BitVec.ofBool (bitOfAlg s.ALG_L) ++ BitVec.ofBool (doneFlag s) ++
    BitVec.ofBool (busyFlag s)

/-- `NSTEPS`: bits 5:0 `pc`, bits 7:6 zero when DONE; 0 when IDLE; unspecified when BUSY (R36, R70). -/
def nstepsByte (s : State) : Option Byte :=
  match s.phase with
  | .idle => some 0
  | .busy => none
  | .done => some (0#2 ++ s.pc)

/-- `TIDX`: bits 5:0 the index, bits 7:6 zero (R38). -/
def tidxByte (s : State) : Byte := 0#2 ++ s.TIDX

end Sys2Proof.Machine
end

