-- ==== Sys2Proof/Machine/Rom.lean ====
section
/-! DEFINITION. The four micro-programs (30_encoding.md R100 to R103): read-only constants (R39, R76). -/

namespace Sys2Proof.Machine

/-- The word of round `r` of a family whose `round` field starts at 0. -/
def roundWord (base : UWord) (r : Nat) : UWord := base + BitVec.ofNat 16 r

/-- `ROM[0][0]`, AES encrypt, 42 words (R100). -/
def romAesEncrypt : List UWord :=
  [0x0000, 0x0100, 0x0200] ++
  [1, 2, 3, 4, 5, 6, 7, 8, 9].flatMap (fun r =>
    [roundWord 0x0300 r, roundWord 0x0400 r, roundWord 0x0500 r, roundWord 0x0200 r]) ++
  [0x030A, 0x040A, 0x020A]

/-- `ROM[0][1]`, AES decrypt, 42 words (R101). -/
def romAesDecrypt : List UWord :=
  [0x4000, 0x4100, 0x4200] ++
  [1, 2, 3, 4, 5, 6, 7, 8, 9].flatMap (fun r =>
    [roundWord 0x4700 r, roundWord 0x4600 r, roundWord 0x4200 r, roundWord 0x4800 r]) ++
  [0x470A, 0x460A, 0x420A]

/-- `ROM[1][0]`, DES encrypt, 20 words (R102). -/
def romDesEncrypt : List UWord :=
  [0x8000, 0x8100] ++ [1, 2, 3, 4, 5, 6, 7, 8, 9, 10, 11, 12, 13, 14, 15, 16].map (roundWord 0x8200) ++
  [0x8300, 0x8400]

/-- `ROM[1][1]`, DES decrypt, 20 words (R103). -/
def romDesDecrypt : List UWord :=
  [0xC000, 0xC100] ++ [1, 2, 3, 4, 5, 6, 7, 8, 9, 10, 11, 12, 13, 14, 15, 16].map (roundWord 0xC200) ++
  [0xC300, 0xC400]

/-- The micro-program of an algorithm and a direction (R24). -/
def rom : Alg → Dir → List UWord
  | .aes, .encrypt => romAesEncrypt
  | .aes, .decrypt => romAesDecrypt
  | .des, .encrypt => romDesEncrypt
  | .des, .decrypt => romDesDecrypt

/-- `N`: 42 Steps for AES, 20 for DES (R9, R10, R104; 90_conflicts.md C1). -/
def traceLength : Alg → Nat
  | .aes => 42
  | .des => 20

end Sys2Proof.Machine
end

