-- ==== Sys2Proof/Machine/Ops.lean ====
section
/-! DEFINITION. The shared operations: the named updates of State, the recording of a micro-op (30_encoding.md R104),
START (46_host_commands.md R241), host reads and the views they read (20_memory.md R70 to R73), reset (70_reset_and_hazards.md
R300, R301). CORE has no exception, no trap entry and no trap return (60_exceptions.md R280, R282), so there is no
operation that takes one (log 18). -/

namespace Sys2Proof.Machine

/-! ## Named updates of State -/

/-- The environment's next turn is taken; `rest` remains. -/
def State.withTurns (s : State) (rest : List Turn) : State := { s with turns := rest }

/-- Write the AES working State (R27). -/
def State.setS (s : State) (v : AesState) : State := { s with S := v }

/-- Write the DES working vector (R28). -/
def State.setV (s : State) (v : BitVec 64) : State := { s with V := v }

/-- Write the whole round-key file (R29). -/
def State.setRK (s : State) (v : Vector AesState 11) : State := { s with RK := v }

/-- Write the whole subkey file (R30). -/
def State.setSK (s : State) (v : Vector (BitVec 48) 16) : State := { s with SK := v }

/-- `TIDX <- b[5:0]` (R38, R240). -/
def State.setTIDX (s : State) (b : Byte) : State := { s with TIDX := b.extractLsb' 0 6 }

/-- `MSG[i] <- b` (R240). -/
def State.setMSG (s : State) (i : Nat) (b : Byte) : State := { s with MSG := s.MSG.setIfInBounds i b }

/-- `KEY[i] <- b` (R240). -/
def State.setKEY (s : State) (i : Nat) (b : Byte) : State := { s with KEY := s.KEY.setIfInBounds i b }

/-- The host has read `b` at `off` (log 5). CORE's own state is untouched (R68). -/
def State.logRead (s : State) (off : Offset) (b : Byte) : State := { s with reads := ⟨off, b⟩ :: s.reads }

/-- One free value has been drawn (log 3). -/
def State.countDraw (s : State) : State := { s with draws := s.draws + 1 }

/-- Latch the command and enter BUSY at `pc` 0; nothing else changes (R241). -/
def State.startRun (s : State) (alg : Alg) (dir : Dir) : State :=
  { s with ALG_L := alg, DIR_L := dir, pc := 0, phase := .busy }

/-- `TRACE[pc] <- r; pc <- pc + 1` (R104, R31, R23). -/
def State.appendRecord (s : State) (r : StepRecord) : State :=
  { s with TRACE := s.TRACE.setIfInBounds s.pc.toNat r, pc := s.pc + 1 }

/-- `OUT <- after; phase <- DONE` (R104, R33). -/
def State.finishRun (s : State) (after : Block) : State := { s with OUT := after, phase := .done }

/-! ## The end of every micro-op -/

/-- The last three lines of R104: write the record, advance `pc`, and at `pc == N` end the run. -/
def State.recordStep (s : State) (r : StepRecord) : State :=
  if (s.appendRecord r).pc.toNat = traceLength s.ALG_L then (s.appendRecord r).finishRun r.after
  else s.appendRecord r

/-- A legal micro-op ends by recording its Step; a reserved word has no meaning and is refused (R97). -/
def commit (i : Instr) (s : State) (r : StepRecord) : Host.Outcome State Fault Refusal :=
  if i.wf then .next (s.recordStep r) else .refused (.reservedWord (uopOf i))

/-- A record without auxiliary data (R32). -/
def plainRecord (i : Instr) (before after : Block) : StepRecord :=
  { zeroRecord with uop := uopOf i, before := before, after := after }

/-- An AES micro-op that applies `g` to `S`; `rk` is its `aux_rk` field (R104, R32). -/
def aesMicroOp (i : Instr) (g : AesState → AesState) (rk : Block) (s : State) : Host.Outcome State Fault Refusal :=
  commit i (s.setS (g s.S)) { plainRecord i (stateToBlock s.S) (stateToBlock (g s.S)) with aux_rk := rk }

/-- A DES micro-op without auxiliary data that applies `g` to `V` (R104, R32). -/
def desMicroOp (i : Instr) (g : BitVec 64 → BitVec 64) (s : State) : Host.Outcome State Fault Refusal :=
  commit i (s.setV (g s.V)) (plainRecord i (desImage s.V) (desImage (g s.V)))

/-! ## START -/

/-- START(alg, dir): accepted in IDLE and DONE, ignored in BUSY (R241, R240). Total (R280). -/
def start (alg : Alg) (dir : Dir) (s : State) : State :=
  if s.phase = .busy then s else s.startRun alg dir

/-! ## What the host reads -/

/-- The trace window's byte at offset `o` in 0x040..0x09F for the record shown (R72, R65). -/
def windowByte (r : StepRecord) (o : Nat) : Byte :=
  if o = 0x040 then r.uop.extractLsb' 0 8
  else if o = 0x041 then r.uop.extractLsb' 8 8
  else if 0x048 ≤ o ∧ o ≤ 0x04D then packedByte r.aux_sk (o - 0x048)
  else if 0x050 ≤ o ∧ o ≤ 0x05F then byteOf r.before (o - 0x050)
  else if 0x060 ≤ o ∧ o ≤ 0x06F then byteOf r.after (o - 0x060)
  else if 0x070 ≤ o ∧ o ≤ 0x07F then byteOf r.aux_rk (o - 0x070)
  else if 0x080 ≤ o ∧ o ≤ 0x085 then packedByte r.aux_e (o - 0x080)
  else if 0x088 ≤ o ∧ o ≤ 0x08D then packedByte r.aux_x (o - 0x088)
  else if 0x090 ≤ o ∧ o ≤ 0x093 then packedByte r.aux_sb (o - 0x090)
  else if 0x094 ≤ o ∧ o ≤ 0x097 then packedByte r.aux_f (o - 0x094)
  else 0

/-- The trace window: the record at `TIDX`, zero at and beyond `pc` (R72). -/
def traceWindow (s : State) (o : Nat) : Byte :=
  if s.pc ≤ s.TIDX then 0 else windowByte (readTRACE s s.TIDX.toNat) o

/-- The key-schedule window at offset `o` in 0x100..0x1AF (R73). -/
def keyWindow (s : State) (o : Nat) : Byte :=
  match s.ALG_L with
  | .aes => byteOf (stateToBlock (readRK s ((o - 0x100) / 16))) ((o - 0x100) % 16)
  | .des =>
    if o < 0x180 ∧ (o - 0x100) % 8 < 6 then packedByte (readSK s ((o - 0x100) / 8)) ((o - 0x100) % 8) else 0

/-- A result byte: defined in DONE only (R70). -/
def whenDone (s : State) (b : Byte) : Option Byte := if s.phase = .done then some b else none

/-- The value a read of `off` returns; `none` where the spec leaves it unspecified (R70, R71, R240). -/
def regValue (s : State) (off : Offset) : Option Byte :=
  let o := off.toNat
  if o = 0x000 then some 0
  else if o = 0x001 then some (statusByte s)
  else if o = 0x002 then nstepsByte s
  else if o = 0x003 then some (tidxByte s)
  else if 0x010 ≤ o ∧ o ≤ 0x01F then some (byteOf s.MSG (o - 0x010))
  else if 0x020 ≤ o ∧ o ≤ 0x02F then some (byteOf s.KEY (o - 0x020))
  else if 0x030 ≤ o ∧ o ≤ 0x03F then whenDone s (byteOf s.OUT (o - 0x030))
  else if 0x040 ≤ o ∧ o ≤ 0x09F then whenDone s (traceWindow s o)
  else if 0x100 ≤ o ∧ o ≤ 0x1AF then whenDone s (keyWindow s o)
  else some 0

/-- `RegRead(off)`: CORE's state is unchanged (R68); the host gets the value, or a freshly drawn byte where it is
unspecified (R70, U1; log 3). Total (R280). -/
def regRead (off : Offset) (s : State) : State :=
  match regValue s off with
  | some b => s.logRead off b
  | none => (s.logRead off (Config.freeByte s.draws)).countDraw

/-! ## What the host writes, but for CTRL -/

/-- `RegWrite(off, b)` in IDLE or DONE at any offset but `CTRL` (R240). -/
def regStore (off : Offset) (b : Byte) (s : State) : State :=
  let o := off.toNat
  if o = 0x003 then s.setTIDX b
  else if 0x010 ≤ o ∧ o ≤ 0x01F then s.setMSG (o - 0x010) b
  else if 0x020 ≤ o ∧ o ≤ 0x02F then s.setKEY (o - 0x020) b
  else s

/-- The system address of an offset (R71, U9; log 14). -/
def systemAddress (off : Offset) : Nat := Config.CORE_BASE + off.toNat

/-! ## Reset -/

/-- The reset line, in any phase (R300, R301, R40): the stated fields take their reset values, the unspecified ones
take freely drawn contents (log 2). The environment's turns and the host's reads are outside CORE. -/
def applyReset (s : State) : State :=
  { State.reset with
    S := Config.freeS s.draws
    V := Config.freeV s.draws
    RK := Vector.ofFn fun k => Config.freeRK s.draws k.val
    SK := Vector.ofFn fun k => Config.freeSK s.draws k.val
    TRACE := Vector.ofFn fun i => Config.freeStep s.draws i.val
    OUT := Config.freeOUT s.draws
    turns := s.turns
    reads := s.reads
    draws := s.draws + 1 }

end Sys2Proof.Machine
end

