-- ==== Sys2Proof/Machine/Aes.lean ====
section
/-! DEFINITION. The meanings of the nine AES micro-ops (41_aes_primitives.md, 42_aes_key_schedule.md), each with the
wrapping of 30_encoding.md R104. -/

namespace Sys2Proof.Machine

/-- BLK2ST: `S <- blockToState(MSG)`; `before = after = MSG` (R132). -/
def execBlk2st (dir : Dir) (s : State) : Host.Outcome State Fault Refusal :=
  commit (.blk2st dir) (s.setS (blockToState s.MSG)) (plainRecord (.blk2st dir) s.MSG s.MSG)

/-- KEYEXP: all eleven round keys from `KEY`; `S` is read and unchanged (R161). -/
def execKeyexp (dir : Dir) (s : State) : Host.Outcome State Fault Refusal :=
  commit (.keyexp dir) (s.setRK (roundKeys s.KEY))
    (plainRecord (.keyexp dir) (stateToBlock s.S) (stateToBlock s.S))

/-- ADDRK: `S <- addRoundKey(S, RK[kidx])`; the key used is recorded (R146). -/
def execAddrk (dir : Dir) (round : BitVec 5) (s : State) : Host.Outcome State Fault Refusal :=
  aesMicroOp (.addrk dir round) (fun S => addRoundKey S (readRK s (addrkKidx dir round)))
    (stateToBlock (readRK s (addrkKidx dir round))) s

/-- SUBB (R136). -/
def execSubb (round : BitVec 5) (s : State) : Host.Outcome State Fault Refusal :=
  aesMicroOp (.subb round) subBytes zeroBlock s

/-- SHROW (R139). -/
def execShrow (round : BitVec 5) (s : State) : Host.Outcome State Fault Refusal :=
  aesMicroOp (.shrow round) shiftRows zeroBlock s

/-- MIXC (R142). -/
def execMixc (round : BitVec 5) (s : State) : Host.Outcome State Fault Refusal :=
  aesMicroOp (.mixc round) mixColumns zeroBlock s

/-- ISUBB (R137). -/
def execIsubb (round : BitVec 5) (s : State) : Host.Outcome State Fault Refusal :=
  aesMicroOp (.isubb round) invSubBytes zeroBlock s

/-- ISHROW (R140). -/
def execIshrow (round : BitVec 5) (s : State) : Host.Outcome State Fault Refusal :=
  aesMicroOp (.ishrow round) invShiftRows zeroBlock s

/-- IMIXC (R144). -/
def execImixc (round : BitVec 5) (s : State) : Host.Outcome State Fault Refusal :=
  aesMicroOp (.imixc round) invMixColumns zeroBlock s

end Sys2Proof.Machine
end

