-- ==== Sys2Proof/Machine/Commands.lean ====
section
/-! DEFINITION. The meanings of the four START commands (46_host_commands.md R241). Bits 7:3 of the byte are ignored
(30_encoding.md R94). -/

namespace Sys2Proof.Machine

/-- START.AES.ENC. -/
def execStartAesEnc (_ignored : BitVec 5) (s : State) : Host.Outcome State Fault Refusal :=
  .next (start .aes .encrypt s)

/-- START.DES.ENC. -/
def execStartDesEnc (_ignored : BitVec 5) (s : State) : Host.Outcome State Fault Refusal :=
  .next (start .des .encrypt s)

/-- START.AES.DEC. -/
def execStartAesDec (_ignored : BitVec 5) (s : State) : Host.Outcome State Fault Refusal :=
  .next (start .aes .decrypt s)

/-- START.DES.DEC. -/
def execStartDesDec (_ignored : BitVec 5) (s : State) : Host.Outcome State Fault Refusal :=
  .next (start .des .decrypt s)

end Sys2Proof.Machine
end

