-- ==== Sys2Proof/Machine/DesFunctions.lean ====
section
/-! DEFINITION. The DES primitives as pure functions on BitVectors (44_des_primitives.md, 45_des_sequences.md). -/

namespace Sys2Proof.Machine

/-- `rotl(V, n)`: every bit moves `n` positions toward position 1 (R13). -/
def rotl (V : BitVec 28) (n : Nat) : BitVec 28 := V.rotateLeft n

/-- The key halves `(C[i], D[i])`; the rotations accumulate (R205). -/
def desHalves (K : BitVec 64) : Nat → BitVec 28 × BitVec 28
  | 0 => let CD : BitVec 56 := permute 56 PC1 K
         (CD.extractLsb' 28 28, CD.extractLsb' 0 28)
  | i + 1 => (rotl (desHalves K i).1 (SHIFTS.getD i 0), rotl (desHalves K i).2 (SHIFTS.getD i 0))

/-- `SK[k] = permute(PC2, C[k+1] ‖ D[k+1])` (R205). -/
def subkey (K : BitVec 64) (k : Nat) : BitVec 48 :=
  permute 48 PC2 ((desHalves K (k + 1)).1 ++ (desHalves K (k + 1)).2)

/-- The sixteen subkeys (R205). -/
def desKeySchedule (K : BitVec 64) : Vector (BitVec 48) 16 := Vector.ofFn fun k => subkey K k.val

/-- S-box lookup: row from the outer bit pair, column from the middle four bits (R199). -/
def sboxLookup (g : Nat) (grp : BitVec 6) : BitVec 4 :=
  let row := 2 * (bitAt grp 1).toNat + (bitAt grp 6).toNat
  let col := 8 * (bitAt grp 2).toNat + 4 * (bitAt grp 3).toNat + 2 * (bitAt grp 4).toNat + (bitAt grp 5).toNat
  BitVec.ofNat 4 (((SB.getD (g - 1) []).getD row []).getD col 0)

/-- Group `g`, bits `6g-5 .. 6g` of a 48-bit vector, first bit leftmost (R206). -/
def sixBitGroup (x : BitVec 48) (g : Nat) : BitVec 6 := x.extractLsb' (48 - 6 * g) 6

/-- The S-box output of group `g` (R206). -/
def boxOut (x : BitVec 48) (g : Nat) : BitVec 4 := sboxLookup g (sixBitGroup x g)

/-- The Feistel function with its intermediate values (R206). -/
def feistel (R : BitVec 32) (k : BitVec 48) : FeistelOut :=
  let e : BitVec 48 := permute 48 E R
  let x := e ^^^ k
  let sb : BitVec 32 :=
    boxOut x 1 ++ boxOut x 2 ++ boxOut x 3 ++ boxOut x 4 ++ boxOut x 5 ++ boxOut x 6 ++ boxOut x 7 ++ boxOut x 8
  { e := e, x := x, sb := sb, fo := permute 32 P sb }

/-- `L = V[1..32]` (R28). -/
def leftHalf (V : BitVec 64) : BitVec 32 := V.extractLsb' 32 32

/-- `R = V[33..64]` (R28). -/
def rightHalf (V : BitVec 64) : BitVec 32 := V.extractLsb' 0 32

/-- `(L, R) → (R, L XOR f(R, subkey))` (R207). -/
def desRound (V : BitVec 64) (k : BitVec 48) : BitVec 64 :=
  rightHalf V ++ (leftHalf V ^^^ (feistel (rightHalf V) k).fo)

/-- The 32-bit swap (R225). -/
def swapHalves (V : BitVec 64) : BitVec 64 := rightHalf V ++ leftHalf V

/-- The initial permutation (R223). -/
def initialPerm (V : BitVec 64) : BitVec 64 := permute 64 IP V

/-- The final permutation (R226). -/
def finalPerm (V : BitVec 64) : BitVec 64 := permute 64 FP V

end Sys2Proof.Machine
end

