-- ==== Sys2Proof/Machine/Des.lean ====
section
/-! DEFINITION. The meanings of the five DES micro-ops (45_des_sequences.md), each with the wrapping of 30_encoding.md
R104. -/

namespace Sys2Proof.Machine

/-- Bytes 0..7 of a Block, bytes 8..15 zero. -/
def lowBytes (B : Block) : Block := buildBlock fun i => if i.val < 8 then B[i] else 0#8

/-- DINPUT: `V <- bits(MSG[0..7])` and all sixteen subkeys from `KEY[0..7]`; `before = after` = the block as given
(R222). -/
def execDinput (dir : Dir) (s : State) : Host.Outcome State Fault Refusal :=
  commit (.dinput dir) ((s.setV (bitsOf8 s.MSG)).setSK (desKeySchedule (bitsOf8 s.KEY)))
    (plainRecord (.dinput dir) (lowBytes s.MSG) (lowBytes s.MSG))

/-- DIP: `V <- permute(IP, V)` (R223). -/
def execDip (dir : Dir) (s : State) : Host.Outcome State Fault Refusal :=
  desMicroOp (.dip dir) initialPerm s

/-- DROUND: `V <- R ‖ (L XOR f(R, SK[kidx]))`; subkey and intermediate values are recorded (R224). -/
def execDround (dir : Dir) (round : BitVec 5) (s : State) : Host.Outcome State Fault Refusal :=
  let k := readSK s (droundKidx dir round)
  let f := feistel (rightHalf s.V) k
  commit (.dround dir round) (s.setV (desRound s.V k))
    { plainRecord (.dround dir round) (desImage s.V) (desImage (desRound s.V k)) with
      aux_sk := k
      aux_e := f.e
      aux_x := f.x
      aux_sb := f.sb
      aux_f := f.fo }

/-- DSWAP: `V <- V[33..64] ‖ V[1..32]` (R225). -/
def execDswap (dir : Dir) (s : State) : Host.Outcome State Fault Refusal :=
  desMicroOp (.dswap dir) swapHalves s

/-- DFP: `V <- permute(FP, V)` (R226). -/
def execDfp (dir : Dir) (s : State) : Host.Outcome State Fault Refusal :=
  desMicroOp (.dfp dir) finalPerm s

end Sys2Proof.Machine
end

