-- ==== Sys2Proof/Machine/Dispatch.lean ====
section
/-! DEFINITION. One arm per instruction, each one direct call of its meaning. -/

namespace Sys2Proof.Machine

def exec (i : Instr) (s : State) : Host.Outcome State Fault Refusal :=
  match i with
  | .blk2st dir => Sys2Proof.Machine.execBlk2st dir s
  | .keyexp dir => Sys2Proof.Machine.execKeyexp dir s
  | .addrk dir round => Sys2Proof.Machine.execAddrk dir round s
  | .subb round => Sys2Proof.Machine.execSubb round s
  | .shrow round => Sys2Proof.Machine.execShrow round s
  | .mixc round => Sys2Proof.Machine.execMixc round s
  | .isubb round => Sys2Proof.Machine.execIsubb round s
  | .ishrow round => Sys2Proof.Machine.execIshrow round s
  | .imixc round => Sys2Proof.Machine.execImixc round s
  | .dinput dir => Sys2Proof.Machine.execDinput dir s
  | .dip dir => Sys2Proof.Machine.execDip dir s
  | .dround dir round => Sys2Proof.Machine.execDround dir round s
  | .dswap dir => Sys2Proof.Machine.execDswap dir s
  | .dfp dir => Sys2Proof.Machine.execDfp dir s
  | .startAesEnc ignored => Sys2Proof.Machine.execStartAesEnc ignored s
  | .startDesEnc ignored => Sys2Proof.Machine.execStartDesEnc ignored s
  | .startAesDec ignored => Sys2Proof.Machine.execStartAesDec ignored s
  | .startDesDec ignored => Sys2Proof.Machine.execStartDesDec ignored s

end Sys2Proof.Machine
end

