-- ==== Sys2Proof/Machine/Agents.lean ====
section
/-! DEFINITION. The two agents (10_state.md R20): the sequencer's fetch and turn (30_encoding.md R104), the host's
write (46_host_commands.md R240), and where a word would have to stand for the machine to run it. -/

namespace Sys2Proof.Machine

/-- `u <- ROM[ALG_L][DIR_L][pc]` (R104, R24). -/
def fetch (s : State) : Option UWord := (rom s.ALG_L s.DIR_L)[s.pc.toNat]?

/-- The sequencer's turn: enabled iff BUSY (R104), else nothing happens (R302, R22). Where there is no word to fetch,
which R104 rules out, nothing happens either (R280; log 7). A reserved word is refused (R97); no micro-program holds
one. -/
def sequencerTurn (s : State) : Host.Outcome State Fault Refusal :=
  if s.phase = .busy then
    match fetch s with
    | none => .next s
    | some w =>
      match decodeU w with
      | .ok i => exec i s
      | .error _ => .refused (.reservedWord w)
  else .next s

/-- `RegWrite(off, b)` (R240): ignored in BUSY (R69); at `CTRL` the START the byte encodes, if any (R35, R94);
elsewhere a plain store. Total (R280). -/
def regWrite (off : Offset) (b : Byte) (s : State) : State :=
  if s.phase = .busy then s
  else if off = 0#9 then
    match commandFields b with
    | some (alg, dir) => start alg dir s
    | none => s
  else regStore off b s

/-- One turn of the agent the environment chose. -/
def takeTurn (t : Turn) (s : State) : Host.Outcome State Fault Refusal :=
  match t with
  | .sequencer => sequencerTurn s
  | .read off => .next (regRead off s)
  | .write off b => .next (regWrite off b s)
  | .reset => .next (applyReset s)

/-- `s` made ready for the sequencer to fetch `w` on its next turn: BUSY, in the micro-program that holds `w`, at its
index there. A word of no micro-program cannot be fetched by any state (R76, R97), and `s` is left as it is (log 6). -/
def placeUWord (s : State) (w : UWord) : State :=
  let alg := algOfBit (w.getLsbD 15)
  let dir := dirOfBit (w.getLsbD 14)
  let at' := (rom alg dir).findIdx (· == w)
  if at' < (rom alg dir).length then
    { s with ALG_L := alg, DIR_L := dir, pc := BitVec.ofNat 6 at', phase := .busy, turns := .sequencer :: s.turns }
  else s

/-- `s` with the host about to write the byte `b` to `CTRL` (log 6). -/
def placeCommand (s : State) (b : Byte) : State := { s with turns := .write 0#9 b :: s.turns }

end Sys2Proof.Machine
end

