-- ==== Sys2Proof/Machine/Step.lean ====
section
/-! DEFINITION. One step of the machine: the environment's next turn, or the sequencer's where it names none. -/

namespace Sys2Proof.Machine

/-- The next turn is taken from `turns`; an empty list means the sequencer's turn (log 4). -/
def step (s : State) : Host.Outcome State Fault Refusal :=
  match s.turns with
  | [] => sequencerTurn s
  | t :: rest => takeTurn t (s.withTurns rest)

/-- The instruction of `nbits` bits `w` placed where `step` takes its next instruction: a command byte in the host's
next write to `CTRL`, a micro-op word by selecting the micro-program slot that holds it (log 6). -/
def State.withFetchWord (s : State) (nbits w : Nat) : State :=
  match nbits with
  | 8 => placeCommand s (BitVec.ofNat 8 w)
  | 16 => placeUWord s (BitVec.ofNat 16 w)
  | _ => s

end Sys2Proof.Machine
end

