-- ==== Sys2Proof/Machine/Names.lean ====
section
/-! DEFINITION. How a Step and a micro-op are written: the step name (30_encoding.md R96) and the listing syntax (R99).
`description` has no defined content and is omitted (R96). -/

namespace Sys2Proof.Machine

/-- `E` or `D` (R99). -/
def dirLetter : Dir → String
  | .encrypt => "E"
  | .decrypt => "D"

/-- The source's step name (R91), with the renderings of ADDRK and DROUND (R96). A command records no Step. -/
def stepName : Instr → Option String
  | .blk2st _ => some "BlockToState"
  | .keyexp _ => some "KeyExpansion"
  | .addrk _ round =>
    if round = 0#5 then some "InitialAddRoundKey"
    else if round = 10#5 then some "FinalAddRoundKey"
    else some "AddRoundKey"
  | .subb _ => some "SubBytes"
  | .shrow _ => some "ShiftRows"
  | .mixc _ => some "MixColumns"
  | .isubb _ => some "InvSubBytes"
  | .ishrow _ => some "InvShiftRows"
  | .imixc _ => some "InvMixColumns"
  | .dinput _ => some "InitialInput"
  | .dip _ => some "InitialPermutation"
  | .dround _ round => some ("Round(" ++ toString round.toNat ++ ")")
  | .dswap _ => some "Swap"
  | .dfp _ => some "FinalPermutation"
  | .startAesEnc _ => none
  | .startDesEnc _ => none
  | .startAesDec _ => none
  | .startDesDec _ => none

/-- `MNEMONIC.dir round`, `round` omitted where it must be 0; a command as `START.alg.dir` (R99). -/
def listing : Instr → String
  | .blk2st dir => "BLK2ST." ++ dirLetter dir
  | .keyexp dir => "KEYEXP." ++ dirLetter dir
  | .addrk dir round => "ADDRK." ++ dirLetter dir ++ " " ++ toString round.toNat
  | .subb round => "SUBB.E " ++ toString round.toNat
  | .shrow round => "SHROW.E " ++ toString round.toNat
  | .mixc round => "MIXC.E " ++ toString round.toNat
  | .isubb round => "ISUBB.D " ++ toString round.toNat
  | .ishrow round => "ISHROW.D " ++ toString round.toNat
  | .imixc round => "IMIXC.D " ++ toString round.toNat
  | .dinput dir => "DINPUT." ++ dirLetter dir
  | .dip dir => "DIP." ++ dirLetter dir
  | .dround dir round => "DROUND." ++ dirLetter dir ++ " " ++ toString round.toNat
  | .dswap dir => "DSWAP." ++ dirLetter dir
  | .dfp dir => "DFP." ++ dirLetter dir
  | .startAesEnc _ => "START.AES.ENC"
  | .startDesEnc _ => "START.DES.ENC"
  | .startAesDec _ => "START.AES.DEC"
  | .startDesDec _ => "START.DES.DEC"

/-- The name of the Step a stored `uop` shows (R96). -/
def nameOfUop (w : UWord) : Option String :=
  match decodeU w with
  | .ok i => stepName i
  | .error _ => none

end Sys2Proof.Machine
end

