-- ==== Sys2Proof/Machine/Codec.lean ====
section
/-! DEFINITION. The host's Bit/Byte Codec (47_host_codec.md): software on the host, not part of CORE's step. A text is
its list of character codes (R260); a block of `bs` bytes is a list of `bs` bytes. -/

namespace Sys2Proof.Machine

/-- The byte of a character code; above 255 it is open (R260, U3; log 15). -/
def charByte (c : Nat) : Byte := if c ≤ 255 then BitVec.ofNat 8 c else Config.TEXT_WIDE_CHAR c

/-- Pad with null bytes or truncate to `bs` bytes (R261). -/
def textToBlock (text : Text) (bs : Nat) : List Byte :=
  (List.range bs).map fun i => match text[i]? with
    | some c => charByte c
    | none => 0x00#8

/-- Space, tab, carriage return, line feed (R263, N22, G7; log 17). -/
def isWhitespace (c : Nat) : Bool := c == 32 || c == 9 || c == 13 || c == 10

/-- Letters a..f raised to A..F (R263). -/
def upperHex (c : Nat) : Nat := if 97 ≤ c ∧ c ≤ 102 then c - 32 else c

/-- `val`: 0..9 and A..F to 0..15; no other character is a hex digit (R263). -/
def hexVal (c : Nat) : Option Nat :=
  if 48 ≤ c ∧ c ≤ 57 then some (c - 48) else if 65 ≤ c ∧ c ≤ 70 then some (c - 55) else none

/-- The byte of a pair of characters, high digit first; `bad` if one of them is no hex digit (R263, R264, U5). -/
def hexPair (a b : Nat) (bad : Byte) : Byte :=
  match hexVal a, hexVal b with
  | some x, some y => BitVec.ofNat 8 (16 * x + y)
  | _, _ => bad

/-- The byte of the lone last character of an odd-length string; `bad` if it is no hex digit (R264, U4, U5; log 16). -/
def hexLone (a : Nat) (bad : Byte) : Byte :=
  match hexVal a with
  | some d => match Config.HEX_ODD_DIGIT with
    | .high => BitVec.ofNat 8 (16 * d)
    | .low => BitVec.ofNat 8 d
    | .drop => 0x00#8
  | none => bad

/-- Whitespace stripped, letters raised; pairs from the left; zero bytes on the right; over-length dropped (R263). -/
def hexToBlock (hex : Text) (bs : Nat) : List Byte :=
  let h := (hex.filter fun c => !isWhitespace c).map upperHex
  (List.range bs).map fun i => match h[2 * i]?, h[2 * i + 1]? with
    | some a, some b => hexPair a b (Config.HEX_BAD_CHAR h i)
    | some a, none => hexLone a (Config.HEX_BAD_CHAR h i)
    | none, _ => 0x00#8

/-- The character code of a hex digit, upper case (R265). -/
def hexDigit (n : Nat) : Nat := if n < 10 then n + 48 else n + 55

/-- Two upper-case digits per byte, high nibble first, no separators (R265). -/
def blockToHex (block : List Byte) : Text :=
  block.flatMap fun b => [hexDigit (b.toNat / 16), hexDigit (b.toNat % 16)]

/-- Printable ASCII; stop at the first null byte; skip any other byte (R266). -/
def blockToText : List Byte → Text
  | [] => []
  | b :: rest =>
    if b = 0x00#8 then []
    else if 32 ≤ b.toNat ∧ b.toNat ≤ 126 then b.toNat :: blockToText rest
    else blockToText rest

end Sys2Proof.Machine
end

