-- ==== Sys2Proof/Machine/HostProgram.lean ====
section
/-! DEFINITION. The runCipher contract as a host program (46_host_commands.md R244, R243, 70_reset_and_hazards.md
R303): its lists of turns, the machine run through them, and what the host makes of the bytes it reads. -/

namespace Sys2Proof.Machine

/-- `bs`: 16 for AES, 8 for DES (R244). -/
def blockSize : Alg → Nat
  | .aes => 16
  | .des => 8

/-- `RegWrite(off, b)` as a turn. -/
def writeTurn (off : Nat) (b : Byte) : Turn := .write (BitVec.ofNat 9 off) b

/-- `RegRead(off)` as a turn. -/
def readTurn (off : Nat) : Turn := .read (BitVec.ofNat 9 off)

/-- `RegWrite(0x010 + i, M[i]) ; RegWrite(0x020 + i, K[i])` for `i` in 0..bs-1 (R244). -/
def loadTurns (bs : Nat) (M K : List Byte) : List Turn :=
  (List.range bs).flatMap fun i => [writeTurn (0x010 + i) (M.getD i 0), writeTurn (0x020 + i) (K.getD i 0)]

/-- `RegWrite(0x000, 0x01 OR (alg << 1) OR (dir << 2))` (R244). -/
def startTurn (alg : Alg) (dir : Dir) : Turn := writeTurn 0x000 (packC alg dir 0)

/-- A poll of `STATUS` (R244, R303). -/
def pollTurn : Turn := readTurn 0x001

/-- Step `t` through the trace window: `RegWrite(0x003, t)`, then reads of 0x040..0x09F (R243). -/
def stepTurns (t : Nat) : List Turn :=
  writeTurn 0x003 (BitVec.ofNat 8 t) :: (List.range 0x60).map fun j => readTurn (0x040 + j)

/-- `OUT[0..bs-1]` (R244). -/
def outTurns (bs : Nat) : List Turn := (List.range bs).map fun i => readTurn (0x030 + i)

/-- The message as the block that reaches CORE: text when encrypting, hex when decrypting (R244). -/
def messageBlock (alg : Alg) (dir : Dir) (message : Text) : List Byte :=
  match dir with
  | .encrypt => textToBlock message (blockSize alg)
  | .decrypt => hexToBlock message (blockSize alg)

/-- The key is always text (R244). -/
def keyBlock (alg : Alg) (key : Text) : List Byte := textToBlock key (blockSize alg)

/-- runCipher up to its START (R244). -/
def runCipherLoad (alg : Alg) (dir : Dir) (message key : Text) : List Turn :=
  loadTurns (blockSize alg) (messageBlock alg dir message) (keyBlock alg key) ++ [startTurn alg dir]

/-- The last `n` bytes the host read, in the order it read them. -/
def lastReads (s : State) (n : Nat) : List Byte := ((s.reads.take n).map fun r => r.value).reverse

/-- The byte the host read last. -/
def lastByte (s : State) : Byte := (lastReads s 1).getD 0 0#8

/-! ### The record behind the bytes of the trace window -/

/-- The Block whose byte 0 is byte `k` of the window. -/
def windowBlock (w : List Byte) (k : Nat) : Block := buildBlock fun i => w.getD (k + i.val) 0#8

/-- The BitVector of length `n` packed from byte `k` of the window on (R64). -/
def windowBits (n : Nat) (w : List Byte) (k : Nat) : BitVec n :=
  ofPositions n fun p => (w.getD (k + (p - 1) / 8) 0#8).getMsbD ((p - 1) % 8)

/-- The Step record that the window's 96 bytes 0x040..0x09F show, byte 0 being the one at 0x040 (R72, R65, R243). -/
def recordOfWindow (w : List Byte) : StepRecord where
  uop := w.getD 0x01 0#8 ++ w.getD 0x00 0#8
  before := windowBlock w 0x10
  after := windowBlock w 0x20
  aux_rk := windowBlock w 0x30
  aux_sk := windowBits 48 w 0x08
  aux_e := windowBits 48 w 0x40
  aux_x := windowBits 48 w 0x48
  aux_sb := windowBits 32 w 0x50
  aux_f := windowBits 32 w 0x54

/-! ### Running it -/

/-- The machine run through the given turns, one step a turn, and no others. -/
def runTurns : List Turn → State → Option State
  | [], s => some s
  | t :: ts, s =>
    match step (s.withTurns [t]) with
    | .next s' => runTurns ts s'
    | .fault _ => none
    | .refused _ => none

/-- "poll DONE" (R244, R303): the host polls `STATUS` until bit 1 reads 1. Entry `k` of the schedule is one poll, taken
`k` sequencer turns after the one before it: the environment's choice, and with it BUSY_POLLS (R310, U8; log 12).
`none` where the schedule ends before a poll reads DONE: the host would still be polling. -/
def pollDone : List Nat → State → Option State
  | [], _ => none
  | k :: ks, s =>
    (runTurns (List.replicate k .sequencer ++ [pollTurn]) s).bind fun s' =>
      if (lastByte s').getLsbD 1 then some s' else pollDone ks s'

/-- The records of the Steps in `ts`, each read through the trace window (R243, R244). -/
def readSteps : List Nat → State → Option (List StepRecord × State)
  | [], s => some ([], s)
  | t :: ts, s =>
    (runTurns (stepTurns t) s).bind fun s' =>
      (readSteps ts s').map fun p => (recordOfWindow (lastReads s' 0x60) :: p.1, p.2)

/-- What runCipher returns: the Trace, the final block as hex and as text (R244). -/
structure CipherResult where
  trace : List StepRecord
  hex : Text
  text : Text
deriving DecidableEq, Repr

/-- runCipher after DONE: `n <- RegRead(0x002)`, the records of Steps 0..n-1, then `OUT[0..bs-1]` (R244). -/
def readResults (alg : Alg) (s : State) : Option (CipherResult × State) :=
  (runTurns [readTurn 0x002] s).bind fun s' =>
    (readSteps (List.range (lastByte s').toNat) s').bind fun p =>
      (runTurns (outTurns (blockSize alg)) p.2).map fun s'' =>
        let final := lastReads s'' (blockSize alg)
        ({ trace := p.1, hex := blockToHex final, text := blockToText final }, s'')

/-- `runCipher(algorithm, direction, message, key) -> Trace` (R6, R244) on the machine `s`: load, START, poll DONE, read
the results. It answers with them and the state it leaves. -/
def runCipher (alg : Alg) (dir : Dir) (message key : Text) (schedule : List Nat) (s : State) :
    Option (CipherResult × State) :=
  (runTurns (runCipherLoad alg dir message key) s).bind fun s' =>
    (pollDone schedule s').bind (readResults alg)

end Sys2Proof.Machine
end

