-- ==== Sys2Proof/Machine/Sequences.lean ====
section
/-! DEFINITION. What a whole run computes, as one function (43_aes_sequences.md R170, R173, 45_des_sequences.md R220),
and its trace record by record as a pure fold (R171, R174, R227; 90_conflicts.md C6). The machine does not call this
file: statements compare a run of the machine with it. -/

namespace Sys2Proof.Machine

/-- `RK[k]` of a round-key file. -/
def rkAt (RK : Vector AesState 11) (k : Nat) : AesState := RK[k]?.getD zeroAes

/-- `SK[k]` of a subkey file. -/
def skAt (SK : Vector (BitVec 48) 16) (k : Nat) : BitVec 48 := SK[k]?.getD 0

/-- The numbers of the middle AES rounds. -/
def middleRounds : List Nat := [1, 2, 3, 4, 5, 6, 7, 8, 9]

/-- The numbers of the DES rounds. -/
def desRounds : List Nat := [1, 2, 3, 4, 5, 6, 7, 8, 9, 10, 11, 12, 13, 14, 15, 16]

/-- A middle encrypt round (R170). -/
def encryptRound (RK : Vector AesState 11) (S : AesState) (r : Nat) : AesState :=
  addRoundKey (mixColumns (shiftRows (subBytes S))) (rkAt RK r)

/-- `finalState` of encryptWithTrace (R170). -/
def encryptState (block key : Block) : AesState :=
  let RK := roundKeys key
  addRoundKey (shiftRows (subBytes
    (middleRounds.foldl (encryptRound RK) (addRoundKey (blockToState block) (rkAt RK 0))))) (rkAt RK 10)

/-- `aesEncrypt(P, K)` (R170). -/
def aesEncrypt (P K : Block) : Block := stateToBlock (encryptState P K)

/-- A middle decrypt round (R173). -/
def decryptRound (RK : Vector AesState 11) (S : AesState) (r : Nat) : AesState :=
  invMixColumns (addRoundKey (invSubBytes (invShiftRows S)) (rkAt RK (10 - r)))

/-- `finalState` of decryptWithTrace (R173). -/
def decryptState (block key : Block) : AesState :=
  let RK := roundKeys key
  addRoundKey (invSubBytes (invShiftRows
    (middleRounds.foldl (decryptRound RK) (addRoundKey (blockToState block) (rkAt RK 10))))) (rkAt RK 0)

/-- `aesDecrypt(C, K)` (R173). -/
def aesDecrypt (C K : Block) : Block := stateToBlock (decryptState C K)

/-- The subkey of DES round `i` in 1..16 (R220). -/
def desKeyOfRound (SK : Vector (BitVec 48) 16) (d : Dir) (i : Nat) : BitVec 48 :=
  match d with
  | .encrypt => skAt SK (i - 1)
  | .decrypt => skAt SK (16 - i)

/-- The result of a DES run on 64-bit vectors (R220). -/
def desCrypt (d : Dir) (block key : BitVec 64) : BitVec 64 :=
  let SK := desKeySchedule key
  finalPerm (swapHalves
    (desRounds.foldl (fun V i => desRound V (desKeyOfRound SK d i)) (initialPerm block)))

/-- `desEncrypt(P, K)` (R220). -/
def desEncrypt (P K : BitVec 64) : BitVec 64 := desCrypt .encrypt P K

/-- `desDecrypt(C, K)` (R220). -/
def desDecrypt (C K : BitVec 64) : BitVec 64 := desCrypt .decrypt C K

/-- One row of an AES trace: the word, the primitive and the round key it records. -/
structure AesRow where
  uop : UWord
  apply : AesState → AesState
  aux_rk : Block

/-- A row without auxiliary data. -/
def plainRow (uop : UWord) (f : AesState → AesState) : AesRow := { uop := uop, apply := f, aux_rk := zeroBlock }

/-- An ADDRK row. -/
def keyRow (uop : UWord) (K : AesState) : AesRow :=
  { uop := uop, apply := fun S => addRoundKey S K, aux_rk := stateToBlock K }

/-- The rows of R171 after row 0. -/
def encryptRows (RK : Vector AesState 11) : List AesRow :=
  [plainRow 0x0100 id, keyRow 0x0200 (rkAt RK 0)] ++
  middleRounds.flatMap (fun r =>
    [plainRow (roundWord 0x0300 r) subBytes, plainRow (roundWord 0x0400 r) shiftRows,
     plainRow (roundWord 0x0500 r) mixColumns, keyRow (roundWord 0x0200 r) (rkAt RK r)]) ++
  [plainRow 0x030A subBytes, plainRow 0x040A shiftRows, keyRow 0x020A (rkAt RK 10)]

/-- The rows of R174 after row 0. -/
def decryptRows (RK : Vector AesState 11) : List AesRow :=
  [plainRow 0x4100 id, keyRow 0x4200 (rkAt RK 10)] ++
  middleRounds.flatMap (fun r =>
    [plainRow (roundWord 0x4700 r) invShiftRows, plainRow (roundWord 0x4600 r) invSubBytes,
     keyRow (roundWord 0x4200 r) (rkAt RK (10 - r)), plainRow (roundWord 0x4800 r) invMixColumns]) ++
  [plainRow 0x470A invShiftRows, plainRow 0x460A invSubBytes, keyRow 0x420A (rkAt RK 0)]

/-- The pure fold: thread the working state through the rows, one record a row. -/
def foldAes : List AesRow → AesState → List StepRecord
  | [], _ => []
  | row :: rows, S =>
    { zeroRecord with
      uop := row.uop, before := stateToBlock S, after := stateToBlock (row.apply S), aux_rk := row.aux_rk } ::
      foldAes rows (row.apply S)

/-- The AES trace of (block, key) in direction `d` (R171, R174). -/
def aesTrace (d : Dir) (block key : Block) : List StepRecord :=
  match d with
  | .encrypt =>
    { zeroRecord with uop := 0x0000, before := block, after := block } ::
      foldAes (encryptRows (roundKeys key)) (blockToState block)
  | .decrypt =>
    { zeroRecord with uop := 0x4000, before := block, after := block } ::
      foldAes (decryptRows (roundKeys key)) (blockToState block)

/-- A DES record without auxiliary data. -/
def desPlainRecord (uop : UWord) (V V' : BitVec 64) : StepRecord :=
  { zeroRecord with uop := uop, before := desImage V, after := desImage V' }

/-- The record of a DES round (R224). -/
def desRoundRecord (uop : UWord) (V : BitVec 64) (k : BitVec 48) : StepRecord :=
  { desPlainRecord uop V (desRound V k) with
    aux_sk := k
    aux_e := (feistel (rightHalf V) k).e
    aux_x := (feistel (rightHalf V) k).x
    aux_sb := (feistel (rightHalf V) k).sb
    aux_f := (feistel (rightHalf V) k).fo }

/-- The records of the DES rounds, threaded through the vector, then `rest` of the last vector (R227). -/
def foldDes (SK : Vector (BitVec 48) 16) (d : Dir) (base : UWord) (rest : BitVec 64 → List StepRecord) :
    List Nat → BitVec 64 → List StepRecord
  | [], V => rest V
  | i :: is, V =>
    desRoundRecord (roundWord base i) V (desKeyOfRound SK d i) ::
      foldDes SK d base rest is (desRound V (desKeyOfRound SK d i))

/-- The direction bit of a DES word. -/
def desWord (d : Dir) (w : UWord) : UWord :=
  match d with
  | .encrypt => w
  | .decrypt => w + 0x4000

/-- The DES trace of (block, key) in direction `d` (R227). -/
def desTrace (d : Dir) (block key : BitVec 64) : List StepRecord :=
  desPlainRecord (desWord d 0x8000) block block ::
  desPlainRecord (desWord d 0x8100) block (initialPerm block) ::
  foldDes (desKeySchedule key) d (desWord d 0x8200)
    (fun V => [desPlainRecord (desWord d 0x8300) V (swapHalves V),
      desPlainRecord (desWord d 0x8400) (swapHalves V) (finalPerm (swapHalves V))])
    desRounds (initialPerm block)

end Sys2Proof.Machine
end

