-- ==== Sys2Proof/Safety.lean ====
section
/-! DEFINITION. What counts as a safe run, in the terms the statements use: the machine goes on without a fault or a
refusal (60_exceptions.md R280, 46_host_commands.md R242), and the invariants that the spec gives its state. -/

namespace Sys2Proof

/-- The machine goes on from `s`. -/
def CanStep (s : Machine.State) : Prop := ∃ t, Machine.step s = .next t

/-- `n` steps lead from `s` to `t`. -/
def Runs (n : Nat) (s t : Machine.State) : Prop := core.run n s = .next t

/-- `t` is reached from reset with some list of the environment's turns. -/
def Reachable (t : Machine.State) : Prop :=
  ∃ turns n, Runs n { Machine.State.reset with turns := turns } t

/-- The image of the working state of the run's algorithm, as R104 records it. -/
def workingImage (s : Machine.State) : Block :=
  match s.ALG_L with
  | .aes => Machine.stateToBlock s.S
  | .des => Machine.desImage s.V

/-- The phase machine and the program counter (R22, R23, R36, R40): in IDLE the control state is that of reset, in
BUSY `pc` is the index of a micro-op of the program, in DONE it is the length of the trace. -/
structure PhaseInv (s : Machine.State) : Prop where
  idle : s.phase = .idle → s.pc = 0 ∧ s.ALG_L = .aes ∧ s.DIR_L = .encrypt
  busy : s.phase = .busy → s.pc.toNat < Machine.traceLength s.ALG_L
  done : s.phase = .done → s.pc.toNat = Machine.traceLength s.ALG_L

/-- The trace written so far (R23, R31, R33, R176, R228): its words are those of the micro-program, each Step starts
where the one before it ended, the working state in BUSY is the last Step's, and so is `OUT` in DONE. -/
structure TraceInv (s : Machine.State) : Prop where
  words : ∀ j (h : j < 42), j < s.pc.toNat → (Machine.rom s.ALG_L s.DIR_L)[j]? = some s.TRACE[j].uop
  chain : ∀ j (h : j + 1 < 42), j + 1 < s.pc.toNat → s.TRACE[j].after = s.TRACE[j + 1].before
  working : s.phase = .busy → ∀ j (h : j < 42), j + 1 = s.pc.toNat → s.TRACE[j].after = workingImage s
  out : s.phase = .done → ∀ j (h : j < 42), j + 1 = s.pc.toNat → s.OUT = s.TRACE[j].after

/-- The key file during a run (R29, R30, R164, R304): from the micro-op after KEYEXP or DINPUT on it is the schedule of
`KEY`. -/
structure KeyFileInv (s : Machine.State) : Prop where
  aes : s.phase = .busy → s.ALG_L = .aes → 2 ≤ s.pc.toNat → s.RK = Machine.roundKeys s.KEY
  des : s.phase = .busy → s.ALG_L = .des → 1 ≤ s.pc.toNat →
    s.SK = Machine.desKeySchedule (Machine.bitsOf8 s.KEY)

end Sys2Proof
end

