-- ==== Sys2Proof/Certificates/Slice0/Obligations.lean ====
section
/-! DEFINITION. The statements about the model. Each docstring names the rule of spec/ it formalises. -/

namespace Sys2Proof.Claim

open Sys2Proof.Machine

/-- A Block written as in the spec's examples: two hex digits per byte, byte 0 first (R16). -/
def hexBlock (n : Nat) : Block := buildBlock fun i => BitVec.ofNat 8 (n / 256 ^ (15 - i.val))

/-- A Step record with no DES auxiliary data (R32). -/
def aesRecord (uop : UWord) (before after aux_rk : Block) : StepRecord :=
  { uop := uop, before := before, after := after, aux_rk := aux_rk, aux_sk := 0, aux_e := 0, aux_x := 0, aux_sb := 0,
    aux_f := 0 }

/-- A Step record of a DES micro-op (R32): the vectors packed into bytes 0..7, `aux_rk` zero. -/
def desRecord (uop : UWord) (before after : BitVec 64) (sk e x : BitVec 48) (sb f : BitVec 32) : StepRecord :=
  { uop := uop, before := desImage before, after := desImage after, aux_rk := zeroBlock, aux_sk := sk, aux_e := e,
    aux_x := x, aux_sb := sb, aux_f := f }

/-- What R104 does around every micro-op that starts in `s`, ends in `t` and records `r`. -/
structure Recorded (s t : State) (r : StepRecord) : Prop where
  pc : t.pc = s.pc + 1
  written : ∀ j (h : j < 42), j = s.pc.toNat → t.TRACE[j] = r
  others : ∀ j (h : j < 42), j ≠ s.pc.toNat → t.TRACE[j] = s.TRACE[j]
  last : (s.pc + 1).toNat = (if s.ALG_L = .aes then 42 else 20) → t.OUT = r.after ∧ t.phase = .done
  notLast : (s.pc + 1).toNat ≠ (if s.ALG_L = .aes then 42 else 20) → t.OUT = s.OUT ∧ t.phase = s.phase

/-- What no micro-op writes: the latched command, the inputs, `TIDX`, and the environment's fields. -/
structure InputsKept (s t : State) : Prop where
  ALG_L : t.ALG_L = s.ALG_L
  DIR_L : t.DIR_L = s.DIR_L
  TIDX : t.TIDX = s.TIDX
  MSG : t.MSG = s.MSG
  KEY : t.KEY = s.KEY
  turns : t.turns = s.turns
  reads : t.reads = s.reads
  draws : t.draws = s.draws

/-- The first of two values when encrypting, the second when decrypting. -/
def byDir {α : Type} : Dir → α → α → α
  | .encrypt, e, _ => e
  | .decrypt, _, d => d

/-- The word `w` stands at index `n` of the micro-program and nowhere else in it. -/
def OnlyAt (program : List UWord) (w : UWord) (n : Nat) : Prop := ∀ j, program[j]? = some w ↔ j = n

/-- Every field of CORE's own state is the same: only the environment's fields may differ (R21). -/
structure SameCore (s t : State) : Prop where
  phase : t.phase = s.phase
  pc : t.pc = s.pc
  ALG_L : t.ALG_L = s.ALG_L
  DIR_L : t.DIR_L = s.DIR_L
  TIDX : t.TIDX = s.TIDX
  MSG : t.MSG = s.MSG
  KEY : t.KEY = s.KEY
  S : t.S = s.S
  V : t.V = s.V
  RK : t.RK = s.RK
  SK : t.SK = s.SK
  TRACE : t.TRACE = s.TRACE
  OUT : t.OUT = s.OUT

end Sys2Proof.Claim

open Sys2Proof Sys2Proof.Machine Sys2Proof.Claim

/-! ## Galois field arithmetic (40_gf_arithmetic.md) -/

/-- R121, R122, R125: `xtime` doubles with reduction, with its corner cases and its example; `gmul(a, b)` is the XOR, over
the bits `k` set in `b`, of `a` doubled `k` times; the source's two test values, with the doubling chains that R125
writes out. -/
def Obligations.XtimeDoublesAndGmulSumsTheDoublings : Prop :=
  (∀ a : Byte, (xtime a).toNat = (a.toNat * 2 % 256) ^^^ (if a.getLsbD 7 then 0x1B else 0x00)) ∧
  xtime 0x00 = 0x00 ∧ xtime 0x80 = 0x1B ∧ xtime 0x7F = 0xFE ∧ xtime 0xFF = 0xE5 ∧ xtime 0x57 = 0xAE ∧
  (∀ a b : Byte, gmul a b =
    (List.range 8).foldl (fun p k => if b.getLsbD k then p ^^^ xtime^[k] a else p) 0x00) ∧
  gmul 0x02 0x57 = 0xAE ∧ gmul 0x03 0x57 = 0xF9 ∧
  (List.range 8).filter (fun k => (0x57#8).getLsbD k) = [0, 1, 2, 4, 6] ∧
  (List.range 8).map (fun k => xtime^[k] 0x02#8) = [0x02, 0x04, 0x08, 0x10, 0x20, 0x40, 0x80, 0x1B] ∧
  (0x02#8 ^^^ 0x04 ^^^ 0x08 ^^^ 0x20 ^^^ 0x80) = 0xAE ∧
  (List.range 8).map (fun k => xtime^[k] 0x03#8) = [0x03, 0x06, 0x0C, 0x18, 0x30, 0x60, 0xC0, 0x9B] ∧
  (0x03#8 ^^^ 0x06 ^^^ 0x0C ^^^ 0x30 ^^^ 0xC0) = 0xF9

/-- R123: the laws of `gmul`, all nine. -/
def Obligations.GmulObeysTheFieldLaws : Prop :=
  (∀ a : Byte, gmul a 0x00 = 0x00 ∧ gmul 0x00 a = 0x00) ∧
  (∀ a : Byte, gmul a 0x01 = a ∧ gmul 0x01 a = a) ∧
  (∀ a b : Byte, gmul a b = gmul b a) ∧
  (∀ a b c : Byte, gmul a (b ^^^ c) = gmul a b ^^^ gmul a c) ∧
  (∀ a b c : Byte, gmul (gmul a b) c = gmul a (gmul b c)) ∧
  (∀ a : Byte, gmul 0x02 a = xtime a ∧ gmul 0x03 a = xtime a ^^^ a) ∧
  (∀ a : Byte, gmul 0x09 a = xtime^[3] a ^^^ a ∧ gmul 0x0B a = xtime^[3] a ^^^ xtime a ^^^ a ∧
    gmul 0x0D a = xtime^[3] a ^^^ xtime^[2] a ^^^ a ∧ gmul 0x0E a = xtime^[3] a ^^^ xtime^[2] a ^^^ xtime a) ∧
  (∀ a : Byte, a ≠ 0x00 → ∃! b : Byte, gmul a b = 0x01) ∧
  (∀ a b : Byte, (gmul a b).toNat ≤ 0xFF)

/-! ## AES functions (41_aes_primitives.md, 42_aes_key_schedule.md) -/

/-- R130, R131: the column-major mapping and its exact reverse. -/
def Obligations.BlockAndStateMapsAreInverse : Prop :=
  (∀ (B : Block) (i : Fin 16), (blockToState B)[i.val % 4][i.val / 4] = B[i]) ∧
  (∀ (B : Block) (r c : Fin 4), (blockToState B)[r][c] = B[r.val + 4 * c.val]) ∧
  (∀ (S : AesState) (r c : Fin 4), (stateToBlock S)[r.val + 4 * c.val] = S[r][c]) ∧
  (∀ B : Block, stateToBlock (blockToState B) = B) ∧
  (∀ S : AesState, blockToState (stateToBlock S) = S)

/-- R138, and the tables of R134 and R135 entry by entry: the two are mutual inverses, SBOX is a bijection without fixed
or opposite fixed point. -/
def Obligations.SubstitutionTablesAreInverse : Prop :=
  (List.range 256).map (fun n => SBOX (BitVec.ofNat 8 n)) =
    [0x63, 0x7C, 0x77, 0x7B, 0xF2, 0x6B, 0x6F, 0xC5, 0x30, 0x01, 0x67, 0x2B, 0xFE, 0xD7, 0xAB, 0x76] ++
    [0xCA, 0x82, 0xC9, 0x7D, 0xFA, 0x59, 0x47, 0xF0, 0xAD, 0xD4, 0xA2, 0xAF, 0x9C, 0xA4, 0x72, 0xC0] ++
    [0xB7, 0xFD, 0x93, 0x26, 0x36, 0x3F, 0xF7, 0xCC, 0x34, 0xA5, 0xE5, 0xF1, 0x71, 0xD8, 0x31, 0x15] ++
    [0x04, 0xC7, 0x23, 0xC3, 0x18, 0x96, 0x05, 0x9A, 0x07, 0x12, 0x80, 0xE2, 0xEB, 0x27, 0xB2, 0x75] ++
    [0x09, 0x83, 0x2C, 0x1A, 0x1B, 0x6E, 0x5A, 0xA0, 0x52, 0x3B, 0xD6, 0xB3, 0x29, 0xE3, 0x2F, 0x84] ++
    [0x53, 0xD1, 0x00, 0xED, 0x20, 0xFC, 0xB1, 0x5B, 0x6A, 0xCB, 0xBE, 0x39, 0x4A, 0x4C, 0x58, 0xCF] ++
    [0xD0, 0xEF, 0xAA, 0xFB, 0x43, 0x4D, 0x33, 0x85, 0x45, 0xF9, 0x02, 0x7F, 0x50, 0x3C, 0x9F, 0xA8] ++
    [0x51, 0xA3, 0x40, 0x8F, 0x92, 0x9D, 0x38, 0xF5, 0xBC, 0xB6, 0xDA, 0x21, 0x10, 0xFF, 0xF3, 0xD2] ++
    [0xCD, 0x0C, 0x13, 0xEC, 0x5F, 0x97, 0x44, 0x17, 0xC4, 0xA7, 0x7E, 0x3D, 0x64, 0x5D, 0x19, 0x73] ++
    [0x60, 0x81, 0x4F, 0xDC, 0x22, 0x2A, 0x90, 0x88, 0x46, 0xEE, 0xB8, 0x14, 0xDE, 0x5E, 0x0B, 0xDB] ++
    [0xE0, 0x32, 0x3A, 0x0A, 0x49, 0x06, 0x24, 0x5C, 0xC2, 0xD3, 0xAC, 0x62, 0x91, 0x95, 0xE4, 0x79] ++
    [0xE7, 0xC8, 0x37, 0x6D, 0x8D, 0xD5, 0x4E, 0xA9, 0x6C, 0x56, 0xF4, 0xEA, 0x65, 0x7A, 0xAE, 0x08] ++
    [0xBA, 0x78, 0x25, 0x2E, 0x1C, 0xA6, 0xB4, 0xC6, 0xE8, 0xDD, 0x74, 0x1F, 0x4B, 0xBD, 0x8B, 0x8A] ++
    [0x70, 0x3E, 0xB5, 0x66, 0x48, 0x03, 0xF6, 0x0E, 0x61, 0x35, 0x57, 0xB9, 0x86, 0xC1, 0x1D, 0x9E] ++
    [0xE1, 0xF8, 0x98, 0x11, 0x69, 0xD9, 0x8E, 0x94, 0x9B, 0x1E, 0x87, 0xE9, 0xCE, 0x55, 0x28, 0xDF] ++
    [0x8C, 0xA1, 0x89, 0x0D, 0xBF, 0xE6, 0x42, 0x68, 0x41, 0x99, 0x2D, 0x0F, 0xB0, 0x54, 0xBB, 0x16] ∧
  (List.range 256).map (fun n => INV_SBOX (BitVec.ofNat 8 n)) =
    [0x52, 0x09, 0x6A, 0xD5, 0x30, 0x36, 0xA5, 0x38, 0xBF, 0x40, 0xA3, 0x9E, 0x81, 0xF3, 0xD7, 0xFB] ++
    [0x7C, 0xE3, 0x39, 0x82, 0x9B, 0x2F, 0xFF, 0x87, 0x34, 0x8E, 0x43, 0x44, 0xC4, 0xDE, 0xE9, 0xCB] ++
    [0x54, 0x7B, 0x94, 0x32, 0xA6, 0xC2, 0x23, 0x3D, 0xEE, 0x4C, 0x95, 0x0B, 0x42, 0xFA, 0xC3, 0x4E] ++
    [0x08, 0x2E, 0xA1, 0x66, 0x28, 0xD9, 0x24, 0xB2, 0x76, 0x5B, 0xA2, 0x49, 0x6D, 0x8B, 0xD1, 0x25] ++
    [0x72, 0xF8, 0xF6, 0x64, 0x86, 0x68, 0x98, 0x16, 0xD4, 0xA4, 0x5C, 0xCC, 0x5D, 0x65, 0xB6, 0x92] ++
    [0x6C, 0x70, 0x48, 0x50, 0xFD, 0xED, 0xB9, 0xDA, 0x5E, 0x15, 0x46, 0x57, 0xA7, 0x8D, 0x9D, 0x84] ++
    [0x90, 0xD8, 0xAB, 0x00, 0x8C, 0xBC, 0xD3, 0x0A, 0xF7, 0xE4, 0x58, 0x05, 0xB8, 0xB3, 0x45, 0x06] ++
    [0xD0, 0x2C, 0x1E, 0x8F, 0xCA, 0x3F, 0x0F, 0x02, 0xC1, 0xAF, 0xBD, 0x03, 0x01, 0x13, 0x8A, 0x6B] ++
    [0x3A, 0x91, 0x11, 0x41, 0x4F, 0x67, 0xDC, 0xEA, 0x97, 0xF2, 0xCF, 0xCE, 0xF0, 0xB4, 0xE6, 0x73] ++
    [0x96, 0xAC, 0x74, 0x22, 0xE7, 0xAD, 0x35, 0x85, 0xE2, 0xF9, 0x37, 0xE8, 0x1C, 0x75, 0xDF, 0x6E] ++
    [0x47, 0xF1, 0x1A, 0x71, 0x1D, 0x29, 0xC5, 0x89, 0x6F, 0xB7, 0x62, 0x0E, 0xAA, 0x18, 0xBE, 0x1B] ++
    [0xFC, 0x56, 0x3E, 0x4B, 0xC6, 0xD2, 0x79, 0x20, 0x9A, 0xDB, 0xC0, 0xFE, 0x78, 0xCD, 0x5A, 0xF4] ++
    [0x1F, 0xDD, 0xA8, 0x33, 0x88, 0x07, 0xC7, 0x31, 0xB1, 0x12, 0x10, 0x59, 0x27, 0x80, 0xEC, 0x5F] ++
    [0x60, 0x51, 0x7F, 0xA9, 0x19, 0xB5, 0x4A, 0x0D, 0x2D, 0xE5, 0x7A, 0x9F, 0x93, 0xC9, 0x9C, 0xEF] ++
    [0xA0, 0xE0, 0x3B, 0x4D, 0xAE, 0x2A, 0xF5, 0xB0, 0xC8, 0xEB, 0xBB, 0x3C, 0x83, 0x53, 0x99, 0x61] ++
    [0x17, 0x2B, 0x04, 0x7E, 0xBA, 0x77, 0xD6, 0x26, 0xE1, 0x69, 0x14, 0x63, 0x55, 0x21, 0x0C, 0x7D] ∧
  (∀ b : Byte, INV_SBOX (SBOX b) = b) ∧ (∀ b : Byte, SBOX (INV_SBOX b) = b) ∧
  Function.Bijective SBOX ∧
  (∀ b : Byte, SBOX b ≠ b) ∧ (∀ b : Byte, SBOX b ≠ b ^^^ 0xFF) ∧
  SBOX 0x00 = 0x63 ∧ INV_SBOX 0x00 = 0x52

/-- The product of two 4 by 4 matrices of bytes: products by `gmul`, sums by XOR. -/
def Sys2Proof.Claim.matMul (A B : Vector (Vector Byte 4) 4) : Vector (Vector Byte 4) 4 := mixWith A B

/-- R141, R143: the two matrices, entry by entry; the inverse times the matrix is the identity; the inverse is the
cube of the matrix and its fourth power is the identity. -/
def Obligations.MixMatrixInverse : Prop :=
  MIX = #v[#v[0x02, 0x03, 0x01, 0x01], #v[0x01, 0x02, 0x03, 0x01], #v[0x01, 0x01, 0x02, 0x03],
    #v[0x03, 0x01, 0x01, 0x02]] ∧
  MIX_INV = #v[#v[0x0E, 0x0B, 0x0D, 0x09], #v[0x09, 0x0E, 0x0B, 0x0D], #v[0x0D, 0x09, 0x0E, 0x0B],
    #v[0x0B, 0x0D, 0x09, 0x0E]] ∧
  (∀ i j : Fin 4, (matMul MIX_INV MIX)[i][j] = if i = j then 0x01 else 0x00) ∧
  MIX_INV = matMul MIX (matMul MIX MIX) ∧
  (∀ i j : Fin 4, (matMul MIX (matMul MIX (matMul MIX MIX)))[i][j] = if i = j then 0x01 else 0x00)

/-- R147: every AES primitive is undone by its inverse, in both orders, and SubBytes commutes with ShiftRows. -/
def Obligations.AesPrimitivesInvert : Prop :=
  (∀ S : AesState, invSubBytes (subBytes S) = S ∧ subBytes (invSubBytes S) = S) ∧
  (∀ S : AesState, invShiftRows (shiftRows S) = S ∧ shiftRows (invShiftRows S) = S) ∧
  (∀ S : AesState, invMixColumns (mixColumns S) = S ∧ mixColumns (invMixColumns S) = S) ∧
  (∀ S K : AesState, addRoundKey (addRoundKey S K) K = S) ∧
  (∀ S : AesState, shiftRows (subBytes S) = subBytes (shiftRows S)) ∧
  (∀ S : AesState, invShiftRows (invSubBytes S) = invSubBytes (invShiftRows S))

/-- R160, R162: the 44 words of the key expansion. -/
def Obligations.KeyExpansionRecurrence : Prop :=
  RCON = [0x01, 0x02, 0x04, 0x08, 0x10, 0x20, 0x40, 0x80, 0x1B, 0x36] ∧
  (∀ n, n + 1 < 10 → RCON.getD (n + 1) 0 = xtime (RCON.getD n 0)) ∧
  ∀ K : Block, ∃ W : Vector KeyWord 44, keyExpansion K = W.toList ∧
    (∀ j b : Fin 4, W[j.val][b] = K[4 * j.val + b.val]) ∧
    (∀ (i : Nat) (h4 : 4 ≤ i) (h : i < 44) (b : Fin 4),
      W[i][b] = W[i - 4][b] ^^^
        (if i % 4 = 0 then
          SBOX W[i - 1][b + 1] ^^^ (if b = 0 then RCON.getD (i / 4 - 1) 0 else 0)
        else W[i - 1][b]))

/-- R163, R165: eleven round keys for every key; word `4r + c` is column `c` of round key `r`; round key 0 is the
key. -/
def Obligations.RoundKeysAreWordColumns : Prop :=
  ∀ K : Block, ∃ W : Vector KeyWord 44, keyExpansion K = W.toList ∧
    (∀ (r : Fin 11) (b c : Fin 4), (roundKeys K)[r][b][c] = W[4 * r.val + c.val][b]) ∧
    (∀ (r : Fin 11) (b c : Fin 4), (stateToBlock (roundKeys K)[r])[4 * c.val + b.val] = W[4 * r.val + c.val][b]) ∧
    (roundKeys K)[0] = blockToState K ∧
    (roundKeys K).toList.length = 11

/-! ## DES functions (44_des_primitives.md) -/

/-- R192: FP written out, its defining property, and the two permutations undo each other. -/
def Obligations.FinalPermutationInvertsInitial : Prop :=
  FP = [40, 8, 48, 16, 56, 24, 64, 32, 39, 7, 47, 15, 55, 23, 63, 31, 38, 6, 46, 14, 54, 22, 62, 30, 37, 5, 45, 13,
    53, 21, 61, 29] ++ [36, 4, 44, 12, 52, 20, 60, 28, 35, 3, 43, 11, 51, 19, 59, 27, 34, 2, 42, 10, 50, 18, 58, 26,
    33, 1, 41, 9, 49, 17, 57, 25] ∧
  (∀ j, 1 ≤ j → j ≤ 64 → FP.getD (IP.getD (j - 1) 0 - 1) 0 = j) ∧
  (∀ V : BitVec 64, permute 64 FP (permute 64 IP V : BitVec 64) = V) ∧
  (∀ V : BitVec 64, permute 64 IP (permute 64 FP V : BitVec 64) = V)

/-- From R195: PC1 has 56 distinct positions in 1..64, none a multiple of 8, so keys that differ only in the eight
parity bits give the same subkeys and the same results. -/
def Obligations.ParityBitsHaveNoEffect : Prop :=
  PC1.length = 56 ∧ PC1.Nodup ∧ (∀ p ∈ PC1, 1 ≤ p ∧ p ≤ 64 ∧ p % 8 ≠ 0) ∧
  ∀ K K' : BitVec 64, (∀ p, 1 ≤ p → p ≤ 64 → p % 8 ≠ 0 → bitAt K p = bitAt K' p) →
    desKeySchedule K = desKeySchedule K' ∧
    ∀ (d : Dir) (block : BitVec 64), desCrypt d block K = desCrypt d block K'

/-- R205: the sixteen subkeys, bit by bit: PC1, accumulating left rotations of the halves, PC2; the example. The three
tables entry by entry (R195, R196, R197). -/
def Obligations.DesScheduleRotatesAndSelects : Prop :=
  PC1 =
    [57, 49, 41, 33, 25, 17, 9, 1, 58, 50, 42, 34, 26, 18, 10, 2, 59, 51, 43, 35, 27, 19, 11, 3, 60, 52, 44, 36] ++
    [63, 55, 47, 39, 31, 23, 15, 7, 62, 54, 46, 38, 30, 22, 14, 6, 61, 53, 45, 37, 29, 21, 13, 5, 28, 20, 12, 4] ∧
  PC2 =
    [14, 17, 11, 24, 1, 5, 3, 28, 15, 6, 21, 10, 23, 19, 12, 4, 26, 8, 16, 7, 27, 20, 13, 2] ++
    [41, 52, 31, 37, 47, 55, 30, 40, 51, 45, 33, 48, 44, 49, 39, 56, 34, 53, 46, 42, 50, 36, 29, 32] ∧
  SHIFTS = [1, 1, 2, 2, 2, 2, 2, 2, 1, 2, 2, 2, 2, 2, 2, 1] ∧
  (∀ K : BitVec 64, ∃ C D : Nat → BitVec 28,
    (∀ p, 1 ≤ p → p ≤ 28 → bitAt (C 0) p = bitAt K (PC1.getD (p - 1) 0) ∧
      bitAt (D 0) p = bitAt K (PC1.getD (p + 27) 0)) ∧
    (∀ i p, i < 16 → 1 ≤ p → p ≤ 28 →
      bitAt (C (i + 1)) p = bitAt (C i) ((p - 1 + SHIFTS.getD i 0) % 28 + 1) ∧
      bitAt (D (i + 1)) p = bitAt (D i) ((p - 1 + SHIFTS.getD i 0) % 28 + 1)) ∧
    (∀ (k : Fin 16) (j : Nat), 1 ≤ j → j ≤ 48 → bitAt (desKeySchedule K)[k] j =
      (if PC2.getD (j - 1) 0 ≤ 28 then bitAt (C (k.val + 1)) (PC2.getD (j - 1) 0)
       else bitAt (D (k.val + 1)) (PC2.getD (j - 1) 0 - 28))) ∧
    (K = 0x133457799BBCDFF1 → C 0 = 0b1111000011001100101010101111 ∧ D 0 = 0b0101010101100110011110001111 ∧
      C 1 = 0b1110000110011001010101011111 ∧ D 1 = 0b1010101011001100111100011110)) ∧
  (desKeySchedule 0x133457799BBCDFF1)[0] = 0x1B02EFFC7072

/-- R206, R199: the Feistel function and its intermediate values, bit by bit and box by box; the examples. The tables
entry by entry (R193, R194, R198). -/
def Obligations.FeistelExpandsSubstitutesPermutes : Prop :=
  E =
    [32, 1, 2, 3, 4, 5, 4, 5, 6, 7, 8, 9, 8, 9, 10, 11, 12, 13, 12, 13, 14, 15, 16, 17] ++
    [16, 17, 18, 19, 20, 21, 20, 21, 22, 23, 24, 25, 24, 25, 26, 27, 28, 29, 28, 29, 30, 31, 32, 1] ∧
  P =
    [16, 7, 20, 21, 29, 12, 28, 17, 1, 15, 23, 26, 5, 18, 31, 10] ++
    [2, 8, 24, 14, 32, 27, 3, 9, 19, 13, 30, 6, 22, 11, 4, 25] ∧
  S1 = [[14, 4, 13, 1, 2, 15, 11, 8, 3, 10, 6, 12, 5, 9, 0, 7],
    [0, 15, 7, 4, 14, 2, 13, 1, 10, 6, 12, 11, 9, 5, 3, 8],
    [4, 1, 14, 8, 13, 6, 2, 11, 15, 12, 9, 7, 3, 10, 5, 0],
    [15, 12, 8, 2, 4, 9, 1, 7, 5, 11, 3, 14, 10, 0, 6, 13]] ∧
  S2 = [[15, 1, 8, 14, 6, 11, 3, 4, 9, 7, 2, 13, 12, 0, 5, 10],
    [3, 13, 4, 7, 15, 2, 8, 14, 12, 0, 1, 10, 6, 9, 11, 5],
    [0, 14, 7, 11, 10, 4, 13, 1, 5, 8, 12, 6, 9, 3, 2, 15],
    [13, 8, 10, 1, 3, 15, 4, 2, 11, 6, 7, 12, 0, 5, 14, 9]] ∧
  S3 = [[10, 0, 9, 14, 6, 3, 15, 5, 1, 13, 12, 7, 11, 4, 2, 8],
    [13, 7, 0, 9, 3, 4, 6, 10, 2, 8, 5, 14, 12, 11, 15, 1],
    [13, 6, 4, 9, 8, 15, 3, 0, 11, 1, 2, 12, 5, 10, 14, 7],
    [1, 10, 13, 0, 6, 9, 8, 7, 4, 15, 14, 3, 11, 5, 2, 12]] ∧
  S4 = [[7, 13, 14, 3, 0, 6, 9, 10, 1, 2, 8, 5, 11, 12, 4, 15],
    [13, 8, 11, 5, 6, 15, 0, 3, 4, 7, 2, 12, 1, 10, 14, 9],
    [10, 6, 9, 0, 12, 11, 7, 13, 15, 1, 3, 14, 5, 2, 8, 4],
    [3, 15, 0, 6, 10, 1, 13, 8, 9, 4, 5, 11, 12, 7, 2, 14]] ∧
  S5 = [[2, 12, 4, 1, 7, 10, 11, 6, 8, 5, 3, 15, 13, 0, 14, 9],
    [14, 11, 2, 12, 4, 7, 13, 1, 5, 0, 15, 10, 3, 9, 8, 6],
    [4, 2, 1, 11, 10, 13, 7, 8, 15, 9, 12, 5, 6, 3, 0, 14],
    [11, 8, 12, 7, 1, 14, 2, 13, 6, 15, 0, 9, 10, 4, 5, 3]] ∧
  S6 = [[12, 1, 10, 15, 9, 2, 6, 8, 0, 13, 3, 4, 14, 7, 5, 11],
    [10, 15, 4, 2, 7, 12, 9, 5, 6, 1, 13, 14, 0, 11, 3, 8],
    [9, 14, 15, 5, 2, 8, 12, 3, 7, 0, 4, 10, 1, 13, 11, 6],
    [4, 3, 2, 12, 9, 5, 15, 10, 11, 14, 1, 7, 6, 0, 8, 13]] ∧
  S7 = [[4, 11, 2, 14, 15, 0, 8, 13, 3, 12, 9, 7, 5, 10, 6, 1],
    [13, 0, 11, 7, 4, 9, 1, 10, 14, 3, 5, 12, 2, 15, 8, 6],
    [1, 4, 11, 13, 12, 3, 7, 14, 10, 15, 6, 8, 0, 5, 9, 2],
    [6, 11, 13, 8, 1, 4, 10, 7, 9, 5, 0, 15, 14, 2, 3, 12]] ∧
  S8 = [[13, 2, 8, 4, 6, 15, 11, 1, 10, 9, 3, 14, 5, 0, 12, 7],
    [1, 15, 13, 8, 10, 3, 7, 4, 12, 5, 6, 11, 0, 14, 9, 2],
    [7, 11, 4, 1, 9, 12, 14, 2, 0, 6, 10, 13, 15, 3, 5, 8],
    [2, 1, 14, 7, 4, 10, 8, 13, 15, 12, 9, 0, 3, 5, 6, 11]] ∧
  SB = [S1, S2, S3, S4, S5, S6, S7, S8] ∧
  (∀ (R : BitVec 32) (k : BitVec 48),
    (∀ j, 1 ≤ j → j ≤ 48 → bitAt (feistel R k).e j = bitAt R (E.getD (j - 1) 0)) ∧
    (feistel R k).x = (feistel R k).e ^^^ k ∧
    (∀ g, 1 ≤ g → g ≤ 8 →
      8 * (bitAt (feistel R k).sb (4 * g - 3)).toNat + 4 * (bitAt (feistel R k).sb (4 * g - 2)).toNat +
        2 * (bitAt (feistel R k).sb (4 * g - 1)).toNat + (bitAt (feistel R k).sb (4 * g)).toNat =
      ((SB.getD (g - 1) []).getD
        (2 * (bitAt (feistel R k).x (6 * g - 5)).toNat + (bitAt (feistel R k).x (6 * g)).toNat) []).getD
        (8 * (bitAt (feistel R k).x (6 * g - 4)).toNat + 4 * (bitAt (feistel R k).x (6 * g - 3)).toNat +
          2 * (bitAt (feistel R k).x (6 * g - 2)).toNat + (bitAt (feistel R k).x (6 * g - 1)).toNat) 0) ∧
    (∀ j, 1 ≤ j → j ≤ 32 → bitAt (feistel R k).fo j = bitAt (feistel R k).sb (P.getD (j - 1) 0))) ∧
  sboxLookup 1 0b011000 = 5 ∧ sboxLookup 8 0b111111 = 11 ∧ sboxLookup 1 0b000000 = 14 ∧
  feistel 0xF0AAF0AA 0x1B02EFFC7072 =
    { e := 0x7A15557A1555, x := 0x6117BA866527, sb := 0x5C82B597, fo := 0x234AA9BB }

/-- R207, and the identity of R208: the round update, and that a round after a swap undoes the round before it. -/
def Obligations.DesRoundUndoesItselfAcrossSwap : Prop :=
  (∀ (V : BitVec 64) (k : BitVec 48), leftHalf (desRound V k) = rightHalf V ∧
    rightHalf (desRound V k) = leftHalf V ^^^ (feistel (rightHalf V) k).fo) ∧
  (∀ (V : BitVec 64) (k : BitVec 48), swapHalves (desRound (swapHalves (desRound V k)) k) = V)

/-! ## Encoding (30_encoding.md) -/

/-- Decoding an encoded well-formed instruction gives it back, with every operand at every value. -/
def Obligations.DecodeOfEncodeIsIdentity : Prop :=
  ∀ i : Instr, i.wf = true → decode (encode i) = .ok i

/-- Whatever decodes is well formed and encodes to the bits it was decoded from: no two words share a meaning. That the
ignored bits 7:3 of a command byte (R94) come back too is the model's choice, log 10 (DESIGN CHOICE): it keeps them as
an operand of the command. -/
def Obligations.EncodeOfDecodeIsIdentity : Prop :=
  ∀ (e : Encoded) (i : Instr), decode e = .ok i → i.wf = true ∧ encode i = e

/-- From R95: the legal words are exactly the words of the four micro-programs, 84 of AES and 40 of DES; every other
word is reserved. -/
def Obligations.LegalWordsAreTheMicroPrograms : Prop :=
  (∀ w : UWord, (∃ i, decodeU w = .ok i) ↔ ∃ a d, w ∈ rom a d) ∧
  (rom .aes .encrypt ++ rom .aes .decrypt).Nodup ∧ (rom .aes .encrypt ++ rom .aes .decrypt).length = 84 ∧
  (rom .des .encrypt ++ rom .des .decrypt).Nodup ∧ (rom .des .encrypt ++ rom .des .decrypt).length = 40 ∧
  (∀ a d d' w, w ∈ rom a d → w ∈ rom a d' → d = d') ∧
  (∀ dir round, (Instr.addrk dir round).wf = true → addrkKidx dir round ≤ 10) ∧
  (∀ dir round, (Instr.dround dir round).wf = true → droundKidx dir round ≤ 15)

/-- The decoding table of 95_test_vectors.md section 6: one word at least per mnemonic, and the reserved words. -/
def Obligations.SpecWordsDecodeAsListed : Prop :=
  decodeU 0x0000 = .ok (.blk2st .encrypt) ∧ decodeU 0x4100 = .ok (.keyexp .decrypt) ∧
  decodeU 0x020A = .ok (.addrk .encrypt 10) ∧ decodeU 0x4203 = .ok (.addrk .decrypt 3) ∧
  decodeU 0x0301 = .ok (.subb 1) ∧ decodeU 0x040A = .ok (.shrow 10) ∧ decodeU 0x0509 = .ok (.mixc 9) ∧
  decodeU 0x4601 = .ok (.isubb 1) ∧ decodeU 0x470A = .ok (.ishrow 10) ∧ decodeU 0x4809 = .ok (.imixc 9) ∧
  decodeU 0x8000 = .ok (.dinput .encrypt) ∧ decodeU 0xC100 = .ok (.dip .decrypt) ∧
  decodeU 0x8210 = .ok (.dround .encrypt 16) ∧ decodeU 0xC201 = .ok (.dround .decrypt 1) ∧
  decodeU 0x8300 = .ok (.dswap .encrypt) ∧ decodeU 0xC400 = .ok (.dfp .decrypt) ∧
  decodeC 0x01 = .ok (.startAesEnc 0) ∧ decodeC 0x03 = .ok (.startDesEnc 0) ∧
  decodeC 0x05 = .ok (.startAesDec 0) ∧ decodeC 0x07 = .ok (.startDesDec 0) ∧
  decodeC 0xF9 = .ok (.startAesEnc 0b11111) ∧ decodeC 0xFE = .error .notACommand ∧
  [0x050A, 0x480A, 0x0300, 0x020B, 0x4300, 0x0601, 0x4501, 0x0901, 0x8500, 0x8200, 0x8211, 0x8001, 0x8301, 0x1000,
    0x2201, 0x0221, 0x0281, 0xFFFF].all (fun w => (decodeU w).toOption.isNone) = true

/-- R102, R103 and the lists in full of R100, R101: the four micro-programs, word for word. -/
def Obligations.MicroProgramsInFull : Prop :=
  rom .aes .encrypt = [0x0000, 0x0100, 0x0200, 0x0301, 0x0401, 0x0501, 0x0201, 0x0302, 0x0402, 0x0502, 0x0202, 0x0303,
    0x0403, 0x0503, 0x0203, 0x0304, 0x0404, 0x0504, 0x0204, 0x0305, 0x0405, 0x0505, 0x0205] ++ [0x0306, 0x0406,
    0x0506, 0x0206, 0x0307, 0x0407, 0x0507, 0x0207, 0x0308, 0x0408, 0x0508, 0x0208, 0x0309, 0x0409, 0x0509, 0x0209,
    0x030A, 0x040A, 0x020A] ∧
  rom .aes .decrypt = [0x4000, 0x4100, 0x4200, 0x4701, 0x4601, 0x4201, 0x4801, 0x4702, 0x4602, 0x4202, 0x4802, 0x4703,
    0x4603, 0x4203, 0x4803, 0x4704, 0x4604, 0x4204, 0x4804, 0x4705, 0x4605, 0x4205, 0x4805] ++ [0x4706, 0x4606,
    0x4206, 0x4806, 0x4707, 0x4607, 0x4207, 0x4807, 0x4708, 0x4608, 0x4208, 0x4808, 0x4709, 0x4609, 0x4209, 0x4809,
    0x470A, 0x460A, 0x420A] ∧
  rom .des .encrypt = [0x8000, 0x8100, 0x8201, 0x8202, 0x8203, 0x8204, 0x8205, 0x8206, 0x8207, 0x8208, 0x8209, 0x820A,
    0x820B, 0x820C, 0x820D, 0x820E, 0x820F, 0x8210, 0x8300, 0x8400] ∧
  rom .des .decrypt = [0xC000, 0xC100, 0xC201, 0xC202, 0xC203, 0xC204, 0xC205, 0xC206, 0xC207, 0xC208, 0xC209, 0xC20A,
    0xC20B, 0xC20C, 0xC20D, 0xC20E, 0xC20F, 0xC210, 0xC300, 0xC400]

/-! ## AES micro-ops: result, record, frame, corner cases, example -/

/-- R132: BLK2ST. -/
def Obligations.Blk2stLoadsTheMessage : Prop :=
  encode (.blk2st .encrypt) = .u 0x0000 ∧ encode (.blk2st .decrypt) = .u 0x4000 ∧
  OnlyAt (rom .aes .encrypt) 0x0000 0 ∧ OnlyAt (rom .aes .decrypt) 0x4000 0 ∧
  (∀ (dir : Dir) (s : State), ∃ t, exec (.blk2st dir) s = .next t ∧
    (∀ r c : Fin 4, t.S[r][c] = s.MSG[r.val + 4 * c.val]) ∧ stateToBlock t.S = s.MSG ∧
    t.V = s.V ∧ t.RK = s.RK ∧ t.SK = s.SK ∧ InputsKept s t ∧
    Recorded s t (aesRecord (byDir dir 0x0000 0x4000) s.MSG s.MSG zeroBlock)) ∧
  (blockToState (hexBlock 0x48454C4C4F2041455320574F524C4421))[0][0] = 0x48 ∧
  (blockToState (hexBlock 0x48454C4C4F2041455320574F524C4421))[1][0] = 0x45 ∧
  (blockToState (hexBlock 0x48454C4C4F2041455320574F524C4421))[0][1] = 0x4F ∧
  (blockToState (hexBlock 0x48454C4C4F2041455320574F524C4421))[3][3] = 0x21

/-- R161, R164: KEYEXP writes all eleven round keys, the same in both directions, and leaves `S`. -/
def Obligations.KeyexpWritesAllRoundKeys : Prop :=
  encode (.keyexp .encrypt) = .u 0x0100 ∧ encode (.keyexp .decrypt) = .u 0x4100 ∧
  OnlyAt (rom .aes .encrypt) 0x0100 1 ∧ OnlyAt (rom .aes .decrypt) 0x4100 1 ∧
  (∀ (dir : Dir) (s : State), ∃ t, exec (.keyexp dir) s = .next t ∧
    (∀ (k : Fin 11) (b c : Fin 4),
      some t.RK[k][b][c] = ((keyExpansion s.KEY)[4 * k.val + c.val]?).map (fun w => w[b])) ∧
    t.S = s.S ∧ t.V = s.V ∧ t.SK = s.SK ∧ InputsKept s t ∧
    Recorded s t (aesRecord (byDir dir 0x0100 0x4100) (stateToBlock s.S)
      (stateToBlock s.S) zeroBlock)) ∧
  stateToBlock (roundKeys zeroBlock)[1] = hexBlock 0x62636363626363636263636362636363 ∧
  (keyExpansion (hexBlock 0x4D595345435245544B45593132333435))[3]? = some #v[0x32, 0x33, 0x34, 0x35] ∧
  gWord 4 #v[0x32, 0x33, 0x34, 0x35] = #v[0xC2, 0x18, 0x96, 0x23] ∧
  #v[SBOX 0x33, SBOX 0x34, SBOX 0x35, SBOX 0x32] = #v[0xC3, 0x18, 0x96, 0x23] ∧
  (keyExpansion (hexBlock 0x4D595345435245544B45593132333435))[4]? = some #v[0x8F, 0x41, 0xC5, 0x66] ∧
  (keyExpansion (hexBlock 0x4D595345435245544B45593132333435))[5]? = some #v[0xCC, 0x13, 0x80, 0x32]

/-- R146: ADDRK with the key index of R93. -/
def Obligations.AddrkXorsTheIndexedRoundKey : Prop :=
  (∀ round : BitVec 5, encode (.addrk .encrypt round) = .u (0x0200 + round.setWidth 16) ∧
    encode (.addrk .decrypt round) = .u (0x4200 + round.setWidth 16)) ∧
  (rom .aes .encrypt)[1]? = some 0x0100 ∧ (rom .aes .encrypt)[2]? = some 0x0200 ∧
  (rom .aes .decrypt)[1]? = some 0x4100 ∧ (rom .aes .decrypt)[2]? = some 0x4200 ∧
  (∀ (dir : Dir) (round : BitVec 5) (s : State), round.toNat ≤ 10 → ∃ (k : Fin 11) (t : State),
    exec (.addrk dir round) s = .next t ∧
    k.val = byDir dir round.toNat (10 - round.toNat) ∧
    (∀ r c : Fin 4, t.S[r][c] = s.S[r][c] ^^^ s.RK[k][r][c]) ∧
    t.V = s.V ∧ t.RK = s.RK ∧ t.SK = s.SK ∧ InputsKept s t ∧
    Recorded s t (aesRecord (byDir dir 0x0200 0x4200 + round.setWidth 16)
      (stateToBlock s.S) (stateToBlock t.S) (stateToBlock s.RK[k]))) ∧
  (∀ S : AesState, addRoundKey S zeroAes = S) ∧ (∀ S : AesState, addRoundKey S S = zeroAes) ∧
  stateToBlock (addRoundKey (blockToState (hexBlock 0x48454C4C4F2041455320574F524C4421))
    (blockToState (hexBlock 0x4D595345435245544B45593132333435))) = hexBlock 0x051C1F090C72041118650E7E607F7014

/-- R136, R137: SUBB and ISUBB substitute every byte, through SBOX and INV_SBOX. -/
def Obligations.SubbAndIsubbSubstituteEveryByte : Prop :=
  (∀ round : BitVec 5, encode (.subb round) = .u (0x0300 + round.setWidth 16) ∧
    encode (.isubb round) = .u (0x4600 + round.setWidth 16)) ∧
  [0x0300, 0x030B, 0x4301, 0x430A, 0x4600, 0x460B, 0x0601, 0x060A].all (fun w => (decodeU w).toOption.isNone) = true ∧
  (∀ (round : BitVec 5) (s : State), 1 ≤ round.toNat → round.toNat ≤ 10 → ∃ t, exec (.subb round) s = .next t ∧
    (∀ r c : Fin 4, t.S[r][c] = SBOX s.S[r][c]) ∧
    (∀ i : Fin 16, (stateToBlock t.S)[i] = SBOX (stateToBlock s.S)[i]) ∧
    t.V = s.V ∧ t.RK = s.RK ∧ t.SK = s.SK ∧ InputsKept s t ∧
    Recorded s t (aesRecord (0x0300 + round.setWidth 16) (stateToBlock s.S) (stateToBlock t.S) zeroBlock)) ∧
  (∀ (round : BitVec 5) (s : State), 1 ≤ round.toNat → round.toNat ≤ 10 → ∃ t, exec (.isubb round) s = .next t ∧
    (∀ r c : Fin 4, t.S[r][c] = INV_SBOX s.S[r][c]) ∧
    t.V = s.V ∧ t.RK = s.RK ∧ t.SK = s.SK ∧ InputsKept s t ∧
    Recorded s t (aesRecord (0x4600 + round.setWidth 16) (stateToBlock s.S) (stateToBlock t.S) zeroBlock)) ∧
  (∀ r c : Fin 4, (subBytes zeroAes)[r][c] = 0x63 ∧ (invSubBytes zeroAes)[r][c] = 0x52) ∧
  (∀ S : AesState, invSubBytes (subBytes S) = S) ∧
  stateToBlock (subBytes (blockToState (hexBlock 0x051C1F090C72041118650E7E607F7014))) =
    hexBlock 0x6B9CC001FE40F282AD4DABF3D0D251FA ∧
  stateToBlock (invSubBytes (blockToState (hexBlock 0xE09CB5D060BA1863AFAE887AFD867D69))) =
    hexBlock 0xA01CD26090C034001BBE97BD21DC13E4

/-- `P_SR`, the block positions of ShiftRows (R139). -/
def Sys2Proof.Claim.P_SR : List Nat := [0, 5, 10, 15, 4, 9, 14, 3, 8, 13, 2, 7, 12, 1, 6, 11]

/-- `P_ISR`, the block positions of InvShiftRows (R140). -/
def Sys2Proof.Claim.P_ISR : List Nat := [0, 13, 10, 7, 4, 1, 14, 11, 8, 5, 2, 15, 12, 9, 6, 3]

/-- R139, R140: SHROW rotates row `r` left by `r`, ISHROW right by `r`. -/
def Obligations.ShrowAndIshrowRotateRows : Prop :=
  (∀ round : BitVec 5, encode (.shrow round) = .u (0x0400 + round.setWidth 16) ∧
    encode (.ishrow round) = .u (0x4700 + round.setWidth 16)) ∧
  [0x0400, 0x040B, 0x4401, 0x440A, 0x4700, 0x470B, 0x0701, 0x070A].all (fun w => (decodeU w).toOption.isNone) = true ∧
  (∀ (round : BitVec 5) (s : State), 1 ≤ round.toNat → round.toNat ≤ 10 → ∃ t, exec (.shrow round) s = .next t ∧
    (∀ r c : Fin 4, t.S[r][c] = s.S[r][(c.val + r.val) % 4]) ∧
    (∀ i : Fin 16, byteOf (stateToBlock t.S) i = byteOf (stateToBlock s.S) (P_SR.getD i 0)) ∧
    t.V = s.V ∧ t.RK = s.RK ∧ t.SK = s.SK ∧ InputsKept s t ∧
    Recorded s t (aesRecord (0x0400 + round.setWidth 16) (stateToBlock s.S) (stateToBlock t.S) zeroBlock)) ∧
  (∀ (round : BitVec 5) (s : State), 1 ≤ round.toNat → round.toNat ≤ 10 → ∃ t, exec (.ishrow round) s = .next t ∧
    (∀ r c : Fin 4, t.S[r][c] = s.S[r][(c.val + 4 - r.val) % 4]) ∧
    (∀ i : Fin 16, byteOf (stateToBlock t.S) i = byteOf (stateToBlock s.S) (P_ISR.getD i 0)) ∧
    t.V = s.V ∧ t.RK = s.RK ∧ t.SK = s.SK ∧ InputsKept s t ∧
    Recorded s t (aesRecord (0x4700 + round.setWidth 16) (stateToBlock s.S) (stateToBlock t.S) zeroBlock)) ∧
  (∀ S : AesState, (∀ r c c' : Fin 4, S[r][c] = S[r][c']) → shiftRows S = S) ∧
  (∀ S : AesState, shiftRows (shiftRows (shiftRows (shiftRows S))) = S) ∧
  (∀ S : AesState, invShiftRows (shiftRows S) = S) ∧
  stateToBlock (shiftRows (blockToState (hexBlock 0x000102030405060708090A0B0C0D0E0F))) =
    hexBlock 0x00050A0F04090E03080D02070C01060B ∧
  stateToBlock (invShiftRows (blockToState (hexBlock 0x000102030405060708090A0B0C0D0E0F))) =
    hexBlock 0x000D0A0704010E0B0805020F0C090603 ∧
  stateToBlock (invShiftRows (blockToState (hexBlock 0xE0BA886960AE7DD0AF86B563FD9C187A))) =
    hexBlock 0xE09CB5D060BA1863AFAE887AFD867D69

/-- R142, R144: MIXC and IMIXC multiply every column by the matrix and by its inverse. -/
def Obligations.MixcAndImixcMultiplyColumns : Prop :=
  (∀ round : BitVec 5, encode (.mixc round) = .u (0x0500 + round.setWidth 16) ∧
    encode (.imixc round) = .u (0x4800 + round.setWidth 16)) ∧
  [0x0500, 0x050A, 0x4501, 0x4509, 0x4800, 0x480A, 0x0801, 0x0809].all (fun w => (decodeU w).toOption.isNone) = true ∧
  (∀ (round : BitVec 5) (s : State), 1 ≤ round.toNat → round.toNat ≤ 9 → ∃ t, exec (.mixc round) s = .next t ∧
    (∀ c : Fin 4,
      t.S[0][c] = gmul 2 s.S[0][c] ^^^ gmul 3 s.S[1][c] ^^^ s.S[2][c] ^^^ s.S[3][c] ∧
      t.S[1][c] = s.S[0][c] ^^^ gmul 2 s.S[1][c] ^^^ gmul 3 s.S[2][c] ^^^ s.S[3][c] ∧
      t.S[2][c] = s.S[0][c] ^^^ s.S[1][c] ^^^ gmul 2 s.S[2][c] ^^^ gmul 3 s.S[3][c] ∧
      t.S[3][c] = gmul 3 s.S[0][c] ^^^ s.S[1][c] ^^^ s.S[2][c] ^^^ gmul 2 s.S[3][c]) ∧
    t.V = s.V ∧ t.RK = s.RK ∧ t.SK = s.SK ∧ InputsKept s t ∧
    Recorded s t (aesRecord (0x0500 + round.setWidth 16) (stateToBlock s.S) (stateToBlock t.S) zeroBlock)) ∧
  (∀ (round : BitVec 5) (s : State), 1 ≤ round.toNat → round.toNat ≤ 9 → ∃ t, exec (.imixc round) s = .next t ∧
    (∀ c : Fin 4,
      t.S[0][c] = gmul 0x0E s.S[0][c] ^^^ gmul 0x0B s.S[1][c] ^^^ gmul 0x0D s.S[2][c] ^^^ gmul 0x09 s.S[3][c] ∧
      t.S[1][c] = gmul 0x09 s.S[0][c] ^^^ gmul 0x0E s.S[1][c] ^^^ gmul 0x0B s.S[2][c] ^^^ gmul 0x0D s.S[3][c] ∧
      t.S[2][c] = gmul 0x0D s.S[0][c] ^^^ gmul 0x09 s.S[1][c] ^^^ gmul 0x0E s.S[2][c] ^^^ gmul 0x0B s.S[3][c] ∧
      t.S[3][c] = gmul 0x0B s.S[0][c] ^^^ gmul 0x0D s.S[1][c] ^^^ gmul 0x09 s.S[2][c] ^^^ gmul 0x0E s.S[3][c]) ∧
    t.V = s.V ∧ t.RK = s.RK ∧ t.SK = s.SK ∧ InputsKept s t ∧
    Recorded s t (aesRecord (0x4800 + round.setWidth 16) (stateToBlock s.S) (stateToBlock t.S) zeroBlock)) ∧
  (∀ (S : AesState) (c : Fin 4) (v : Byte), (∀ r : Fin 4, S[r][c] = v) →
    ∀ r : Fin 4, (mixColumns S)[r][c] = v ∧ (invMixColumns S)[r][c] = v) ∧
  (∀ S : AesState, invMixColumns (mixColumns S) = S) ∧
  stateToBlock (mixColumns (blockToState (hexBlock 0xDB135345F20A225C01010101C6C6C6C6))) =
    hexBlock 0x8E4DA1BC9FDC589D01010101C6C6C6C6 ∧
  stateToBlock (mixColumns (blockToState (hexBlock 0x6B40ABFAFE4D5101ADD2C082D09CF2F3))) =
    hexBlock 0x47F773B9609612076ECB79E1050DBDF8 ∧
  stateToBlock (invMixColumns (blockToState (hexBlock 0x8E4DA1BC9FDC589D01010101C6C6C6C6))) =
    hexBlock 0xDB135345F20A225C01010101C6C6C6C6 ∧
  stateToBlock (invMixColumns (blockToState (hexBlock 0x20096E511E9F9E877117F50353DAAA92))) =
    hexBlock 0xF71A956E05C9AEFAE7E458CBDD4F5D7E

/-! ## DES micro-ops -/

/-- R222: DINPUT loads the block and computes all sixteen subkeys; bytes 8..15 of `MSG` and `KEY` are not read. -/
def Obligations.DinputLoadsBlockAndSubkeys : Prop :=
  encode (.dinput .encrypt) = .u 0x8000 ∧ encode (.dinput .decrypt) = .u 0xC000 ∧
  OnlyAt (rom .des .encrypt) 0x8000 0 ∧ OnlyAt (rom .des .decrypt) 0xC000 0 ∧
  (∀ (dir : Dir) (s : State), ∃ t, exec (.dinput dir) s = .next t ∧
    (∀ i k, i < 8 → k < 8 → bitAt t.V (8 * i + k + 1) = (byteOf s.MSG i).getLsbD (7 - k)) ∧
    (∃ K : BitVec 64, (∀ i k, i < 8 → k < 8 → bitAt K (8 * i + k + 1) = (byteOf s.KEY i).getLsbD (7 - k)) ∧
      t.SK = desKeySchedule K) ∧
    t.S = s.S ∧ t.RK = s.RK ∧ InputsKept s t ∧
    (∃ image : Block, (∀ i, i < 8 → byteOf image i = byteOf s.MSG i) ∧
      (∀ i, 8 ≤ i → i < 16 → byteOf image i = 0) ∧
      Recorded s t (aesRecord (byDir dir 0x8000 0xC000) image image zeroBlock))) ∧
  (∀ (dir : Dir) (s s' t t' : State), (∀ i, i < 8 → byteOf s.MSG i = byteOf s'.MSG i ∧ byteOf s.KEY i = byteOf s'.KEY i) →
    exec (.dinput dir) s = .next t → exec (.dinput dir) s' = .next t' → t.V = t'.V ∧ t.SK = t'.SK) ∧
  bitsOf8 (hexBlock 0x0123456789ABCDEF0000000000000000) =
    0b0000000100100011010001010110011110001001101010111100110111101111

/-- R223, R226: DIP and DFP apply the initial and the final permutation to `V`. -/
def Obligations.DipAndDfpPermuteTheVector : Prop :=
  encode (.dip .encrypt) = .u 0x8100 ∧ encode (.dip .decrypt) = .u 0xC100 ∧
  encode (.dfp .encrypt) = .u 0x8400 ∧ encode (.dfp .decrypt) = .u 0xC400 ∧
  OnlyAt (rom .des .encrypt) 0x8100 1 ∧ OnlyAt (rom .des .decrypt) 0xC100 1 ∧
  OnlyAt (rom .des .encrypt) 0x8400 19 ∧ OnlyAt (rom .des .decrypt) 0xC400 19 ∧
  (∀ d, (rom .des d).length = 20) ∧
  (∀ (dir : Dir) (s : State), ∃ t, exec (.dip dir) s = .next t ∧
    (∀ j, 1 ≤ j → j ≤ 64 → bitAt t.V j = bitAt s.V (IP.getD (j - 1) 0)) ∧
    t.S = s.S ∧ t.RK = s.RK ∧ t.SK = s.SK ∧ InputsKept s t ∧
    Recorded s t (desRecord (byDir dir 0x8100 0xC100) s.V t.V 0 0 0 0 0)) ∧
  (∀ (dir : Dir) (s : State), ∃ t, exec (.dfp dir) s = .next t ∧
    (∀ j, 1 ≤ j → j ≤ 64 → bitAt t.V j = bitAt s.V (FP.getD (j - 1) 0)) ∧
    t.S = s.S ∧ t.RK = s.RK ∧ t.SK = s.SK ∧ InputsKept s t ∧
    Recorded s t (desRecord (byDir dir 0x8400 0xC400) s.V t.V 0 0 0 0 0)) ∧
  initialPerm 0 = 0 ∧ initialPerm (BitVec.allOnes 64) = BitVec.allOnes 64 ∧
  initialPerm 0x0123456789ABCDEF = 0xCC00CCFFF0AAF0AA ∧
  leftHalf (initialPerm 0x0123456789ABCDEF) = 0xCC00CCFF ∧ rightHalf (initialPerm 0x0123456789ABCDEF) = 0xF0AAF0AA ∧
  finalPerm 0x0A4CD99543423234 = 0x85E813540F0AB405

/-- R224: DROUND with the key index of R93, recording the subkey and the Feistel intermediates. -/
def Obligations.DroundUpdatesAndRecords : Prop :=
  (∀ round : BitVec 5, encode (.dround .encrypt round) = .u (0x8200 + round.setWidth 16) ∧
    encode (.dround .decrypt round) = .u (0xC200 + round.setWidth 16)) ∧
  (∀ r, 1 ≤ r → r ≤ 16 → OnlyAt (rom .des .encrypt) (0x8200 + BitVec.ofNat 16 r) (r + 1) ∧
    OnlyAt (rom .des .decrypt) (0xC200 + BitVec.ofNat 16 r) (r + 1)) ∧
  (∀ (dir : Dir) (round : BitVec 5) (s : State), 1 ≤ round.toNat → round.toNat ≤ 16 →
    ∃ (k : Fin 16) (t : State), exec (.dround dir round) s = .next t ∧
    k.val = byDir dir (round.toNat - 1) (16 - round.toNat) ∧
    leftHalf t.V = rightHalf s.V ∧
    rightHalf t.V = leftHalf s.V ^^^ (feistel (rightHalf s.V) s.SK[k]).fo ∧
    t.S = s.S ∧ t.RK = s.RK ∧ t.SK = s.SK ∧ InputsKept s t ∧
    Recorded s t (desRecord (byDir dir 0x8200 0xC200 + round.setWidth 16) s.V t.V
      s.SK[k] (feistel (rightHalf s.V) s.SK[k]).e (feistel (rightHalf s.V) s.SK[k]).x
      (feistel (rightHalf s.V) s.SK[k]).sb (feistel (rightHalf s.V) s.SK[k]).fo)) ∧
  desRound 0xCC00CCFFF0AAF0AA 0x1B02EFFC7072 = 0xF0AAF0AAEF4A6544 ∧
  feistel 0xF0AAF0AA 0x1B02EFFC7072 =
    { e := 0x7A15557A1555, x := 0x6117BA866527, sb := 0x5C82B597, fo := 0x234AA9BB }

/-- R225: DSWAP exchanges the halves. -/
def Obligations.DswapExchangesTheHalves : Prop :=
  encode (.dswap .encrypt) = .u 0x8300 ∧ encode (.dswap .decrypt) = .u 0xC300 ∧
  OnlyAt (rom .des .encrypt) 0x8300 18 ∧ OnlyAt (rom .des .decrypt) 0xC300 18 ∧
  (∀ (dir : Dir) (s : State), ∃ t, exec (.dswap dir) s = .next t ∧
    leftHalf t.V = rightHalf s.V ∧ rightHalf t.V = leftHalf s.V ∧
    t.S = s.S ∧ t.RK = s.RK ∧ t.SK = s.SK ∧ InputsKept s t ∧
    Recorded s t (desRecord (byDir dir 0x8300 0xC300) s.V t.V 0 0 0 0 0)) ∧
  (∀ V : BitVec 64, leftHalf V = rightHalf V → swapHalves V = V) ∧
  (∀ V : BitVec 64, swapHalves (swapHalves V) = V) ∧
  swapHalves 0x434232340A4CD995 = 0x0A4CD99543423234

/-- From R97: a micro-op whose operand is out of range has no meaning and is refused, under the name of its word,
which does not decode either. -/
def Obligations.IllFormedMicroOpsAreRefused : Prop :=
  ∀ (i : Instr) (s : State), i.wf = false →
    exec i s = .refused (.reservedWord (uopOf i)) ∧ (decodeU (uopOf i)).toOption = none

/-! ## Commands, host accesses, reset -/

/-- From R241, R94: each START latches its algorithm and direction and enters BUSY at `pc` 0, whatever bits 7:3 are;
nothing else changes; in BUSY it does nothing. -/
def Obligations.StartBeginsARun : Prop :=
  ∀ (s : State) (g : BitVec 5),
    (s.phase ≠ .busy →
      (∃ t, exec (.startAesEnc g) s = .next t ∧ t = { s with ALG_L := .aes, DIR_L := .encrypt, pc := 0, phase := .busy }) ∧
      (∃ t, exec (.startDesEnc g) s = .next t ∧ t = { s with ALG_L := .des, DIR_L := .encrypt, pc := 0, phase := .busy }) ∧
      (∃ t, exec (.startAesDec g) s = .next t ∧ t = { s with ALG_L := .aes, DIR_L := .decrypt, pc := 0, phase := .busy }) ∧
      (∃ t, exec (.startDesDec g) s = .next t ∧ t = { s with ALG_L := .des, DIR_L := .decrypt, pc := 0, phase := .busy })) ∧
    (s.phase = .busy →
      exec (.startAesEnc g) s = .next s ∧ exec (.startDesEnc g) s = .next s ∧
      exec (.startAesDec g) s = .next s ∧ exec (.startDesDec g) s = .next s)

/-- R35: the `CTRL` register: bit 0 starts a run with ALG from bit 1 and DIR from bit 2; bit 0 clear, or BUSY, no
effect; bits 7:3 ignored; a read gives 0x00 in every state. -/
def Obligations.CtrlRegisterStartsRuns : Prop :=
  (∀ (s : State) (b : Byte) (rest : List Turn), s.turns = .write 0x000 b :: rest →
    (s.phase ≠ .busy → b.getLsbD 0 = true →
      step s = .next { s with
        ALG_L := if b.getLsbD 1 then .des else .aes
        DIR_L := if b.getLsbD 2 then .decrypt else .encrypt
        pc := 0
        phase := .busy
        turns := rest }) ∧
    (b.getLsbD 0 = false → step s = .next { s with turns := rest }) ∧
    (s.phase = .busy → step s = .next { s with turns := rest })) ∧
  ∀ s : State, regValue s 0x000 = some 0x00

/-- R69: while BUSY every host write, to any offset, changes nothing. -/
def Obligations.WritesWhileBusyAreIgnored : Prop :=
  ∀ (s : State) (off : Offset) (b : Byte) (rest : List Turn), s.turns = .write off b :: rest → s.phase = .busy →
    ∃ t, step s = .next t ∧ SameCore s t ∧ t.turns = rest ∧ t.reads = s.reads ∧ t.draws = s.draws

/-- From R240: outside BUSY a write to `TIDX`, `MSG`, `KEY` stores its byte and nothing else, and a write to any other
offset but `CTRL` has no effect; every other byte the host can read of `MSG`, `KEY`, `TIDX` is as before. -/
def Obligations.HostWritesStoreOneByte : Prop :=
  ∀ (s : State) (off : Offset) (b : Byte) (rest : List Turn), s.turns = .write off b :: rest → s.phase ≠ .busy →
    off ≠ 0x000 → ∃ t, step s = .next t ∧
      t.phase = s.phase ∧ t.pc = s.pc ∧ t.ALG_L = s.ALG_L ∧ t.DIR_L = s.DIR_L ∧ t.S = s.S ∧ t.V = s.V ∧
      t.RK = s.RK ∧ t.SK = s.SK ∧ t.TRACE = s.TRACE ∧ t.OUT = s.OUT ∧ t.turns = rest ∧ t.reads = s.reads ∧
      t.draws = s.draws ∧
      t.TIDX = (if off = 0x003 then b.extractLsb' 0 6 else s.TIDX) ∧
      (∀ i : Fin 16, t.MSG[i] = if off.toNat = 0x010 + i.val then b else s.MSG[i]) ∧
      (∀ i : Fin 16, t.KEY[i] = if off.toNat = 0x020 + i.val then b else s.KEY[i])

/-- R68, and the draw of R70: a read changes no state of CORE; the host gets the register's value, and where the spec
leaves it unspecified a fresh free value: the opaque byte numbered by the counter of draws, which advances. That form
of the draw is the model's choice, log 3 (DESIGN CHOICE). -/
def Obligations.ReadsHaveNoSideEffect : Prop :=
  ∀ (s : State) (off : Offset) (rest : List Turn), s.turns = .read off :: rest →
    ∃ t b, step s = .next t ∧ SameCore s t ∧ t.turns = rest ∧ t.reads = ⟨off, b⟩ :: s.reads ∧
      (∀ v, regValue s off = some v → b = v ∧ t.draws = s.draws) ∧
      (regValue s off = none → b = Config.freeByte s.draws ∧ t.draws = s.draws + 1)

/-- R37, R36, R38, R70: the bits of `STATUS` in every phase; `NSTEPS` is 0 in IDLE, `pc` in DONE (42 or 20 there),
unspecified in BUSY; `TIDX` reads its six bits. In BUSY R36 bounds `NSTEPS` and R70 leaves it unspecified: following
R70 there is the model's choice, log 3 (DESIGN CHOICE). -/
def Obligations.StatusNstepsAndTidxRead : Prop :=
  (∀ s : State, ∃ b, regValue s 0x001 = some b ∧
    (b.getLsbD 0 = true ↔ s.phase = .busy) ∧ (b.getLsbD 1 = true ↔ s.phase = .done) ∧
    (b.getLsbD 2 = true ↔ s.ALG_L = .des) ∧ (b.getLsbD 3 = true ↔ s.DIR_L = .decrypt) ∧
    (∀ k, 4 ≤ k → b.getLsbD k = false) ∧ ¬(b.getLsbD 0 = true ∧ b.getLsbD 1 = true)) ∧
  regValue State.reset 0x001 = some 0x00 ∧
  ∀ s : State, PhaseInv s →
    (s.phase = .idle → regValue s 0x002 = some 0x00) ∧
    (s.phase = .busy → regValue s 0x002 = none) ∧
    (s.phase = .done → regValue s 0x002 = some (s.pc.setWidth 8) ∧
      s.pc.toNat = (if s.ALG_L = .aes then 42 else 20)) ∧
    regValue s 0x003 = some (s.TIDX.setWidth 8)

/-- R70, R71: which reads are defined: `NSTEPS` in BUSY, and `OUT` and the two windows outside DONE, are
unspecified; every other offset has a value in every phase, 0x00 at the reserved ones. -/
def Obligations.ResultReadsNeedDone : Prop :=
  ∀ (s : State) (off : Offset),
    (regValue s off = none ↔
      (off.toNat = 0x002 ∧ s.phase = .busy) ∨
      (s.phase ≠ .done ∧ ((0x030 ≤ off.toNat ∧ off.toNat ≤ 0x09F) ∨ (0x100 ≤ off.toNat ∧ off.toNat ≤ 0x1AF)))) ∧
    (((0x004 ≤ off.toNat ∧ off.toNat ≤ 0x00F) ∨ (0x0A0 ≤ off.toNat ∧ off.toNat ≤ 0x0FF) ∨ 0x1B0 ≤ off.toNat) →
      regValue s off = some 0x00) ∧
    (∀ i : Fin 16, (off.toNat = 0x010 + i.val → regValue s off = some s.MSG[i]) ∧
      (off.toNat = 0x020 + i.val → regValue s off = some s.KEY[i]) ∧
      (off.toNat = 0x030 + i.val → s.phase = .done → regValue s off = some s.OUT[i]))

/-- R72, R65: the trace window in DONE, byte by byte. -/
def Obligations.TraceWindowLayout : Prop :=
  ∀ (s : State) (off : Offset), s.phase = .done → 0x040 ≤ off.toNat → off.toNat ≤ 0x09F →
    (s.pc.toNat ≤ s.TIDX.toNat → regValue s off = some 0x00) ∧
    (∀ h : s.TIDX.toNat < 42, s.TIDX.toNat < s.pc.toNat →
      (off.toNat = 0x040 → regValue s off = some (s.TRACE[s.TIDX.toNat].uop.extractLsb' 0 8)) ∧
      (off.toNat = 0x041 → regValue s off = some (s.TRACE[s.TIDX.toNat].uop.extractLsb' 8 8)) ∧
      (∀ i : Fin 6,
        (off.toNat = 0x048 + i.val → regValue s off = some (packedByte s.TRACE[s.TIDX.toNat].aux_sk i.val)) ∧
        (off.toNat = 0x080 + i.val → regValue s off = some (packedByte s.TRACE[s.TIDX.toNat].aux_e i.val)) ∧
        (off.toNat = 0x088 + i.val → regValue s off = some (packedByte s.TRACE[s.TIDX.toNat].aux_x i.val))) ∧
      (∀ i : Fin 16,
        (off.toNat = 0x050 + i.val → regValue s off = some s.TRACE[s.TIDX.toNat].before[i]) ∧
        (off.toNat = 0x060 + i.val → regValue s off = some s.TRACE[s.TIDX.toNat].after[i]) ∧
        (off.toNat = 0x070 + i.val → regValue s off = some s.TRACE[s.TIDX.toNat].aux_rk[i])) ∧
      (∀ i : Fin 4,
        (off.toNat = 0x090 + i.val → regValue s off = some (packedByte s.TRACE[s.TIDX.toNat].aux_sb i.val)) ∧
        (off.toNat = 0x094 + i.val → regValue s off = some (packedByte s.TRACE[s.TIDX.toNat].aux_f i.val))) ∧
      (((0x042 ≤ off.toNat ∧ off.toNat ≤ 0x047) ∨ (0x04E ≤ off.toNat ∧ off.toNat ≤ 0x04F) ∨
        (0x086 ≤ off.toNat ∧ off.toNat ≤ 0x087) ∨ (0x08E ≤ off.toNat ∧ off.toNat ≤ 0x08F) ∨ 0x098 ≤ off.toNat) →
        regValue s off = some 0x00))

/-- R73: the key-schedule window in DONE, byte by byte. -/
def Obligations.KeyScheduleWindowLayout : Prop :=
  ∀ (s : State) (off : Offset), s.phase = .done →
    (s.ALG_L = .aes → ∀ (k : Fin 11) (i : Fin 16), off.toNat = 0x100 + 16 * k.val + i.val →
      regValue s off = some (stateToBlock s.RK[k])[i]) ∧
    (s.ALG_L = .des →
      (∀ (k : Fin 16) (j : Fin 8), off.toNat = 0x100 + 8 * k.val + j.val →
        regValue s off = some (if j.val < 6 then packedByte s.SK[k] j.val else 0x00)) ∧
      (0x180 ≤ off.toNat → off.toNat ≤ 0x1AF → regValue s off = some 0x00))

/-- From R64: a vector of `m` bytes, of any length (64, 48, 32), is packed with position 1 as the top bit of byte 0;
packing and unpacking a 64-bit vector undo each other. -/
def Obligations.DesPackingIsMsbFirst : Prop :=
  (∀ (B : Block) (i k : Nat), i < 8 → k < 8 → bitAt (bitsOf8 B) (8 * i + k + 1) = (byteOf B i).getLsbD (7 - k)) ∧
  (∀ (n m : Nat) (V : BitVec n) (i k : Nat), n = 8 * m → i < m → k < 8 →
    (packedByte V i).getLsbD (7 - k) = bitAt V (8 * i + k + 1)) ∧
  (∀ V : BitVec 64, bitsOf8 (desImage V) = V) ∧
  (∀ B : Block, desImage (bitsOf8 B) = lowBytes B)

/-- R40: what reset fixes, at power-on and as an event in any phase; the bytes the host then reads. The contents of
`S`, `V`, `RK`, `SK`, `TRACE`, `OUT` are not stated, and outside DONE no read depends on them. -/
def Obligations.ResetFixesControlAndInputs : Prop :=
  (∀ (s : State) (rest : List Turn), s.turns = .reset :: rest → ∃ t, step s = .next t ∧
    t.phase = .idle ∧ t.pc = 0 ∧ t.ALG_L = .aes ∧ t.DIR_L = .encrypt ∧ t.TIDX = 0 ∧
    (∀ i : Fin 16, t.MSG[i] = 0x00 ∧ t.KEY[i] = 0x00) ∧ t.turns = rest ∧
    (∀ off : Offset, off.toNat ≤ 0x02F → regValue t off = some 0x00)) ∧
  State.reset.phase = .idle ∧ State.reset.pc = 0 ∧ State.reset.ALG_L = .aes ∧ State.reset.DIR_L = .encrypt ∧
  State.reset.TIDX = 0 ∧ (∀ i : Fin 16, State.reset.MSG[i] = 0x00 ∧ State.reset.KEY[i] = 0x00) ∧
  (∀ (s : State) (S : AesState) (V : BitVec 64) (RK : Vector AesState 11) (SK : Vector (BitVec 48) 16)
    (TRACE : Vector StepRecord 42) (OUT : Block) (off : Offset), s.phase ≠ .done →
    regValue { s with S := S, V := V, RK := RK, SK := SK, TRACE := TRACE, OUT := OUT } off = regValue s off)

/-! ## The step -/

/-- From R104, R240, R302: a step runs the decoded instruction: in BUSY the micro-op at `pc`, on the sequencer's turn;
the command that a byte written to `CTRL` decodes to. Around `exec` the step only takes the turn. Outside BUSY the
sequencer's turn does nothing. -/
def Obligations.StepRunsTheDecodedInstruction : Prop :=
  (∀ (s : State) (w : UWord) (i : Instr), s.turns = [] → s.phase = .busy →
    (rom s.ALG_L s.DIR_L)[s.pc.toNat]? = some w → decodeU w = .ok i → step s = exec i s) ∧
  (∀ (s : State) (rest : List Turn) (w : UWord) (i : Instr), s.turns = .sequencer :: rest → s.phase = .busy →
    (rom s.ALG_L s.DIR_L)[s.pc.toNat]? = some w → decodeU w = .ok i → step s = exec i { s with turns := rest }) ∧
  (∀ (s : State) (rest : List Turn) (b : Byte) (i : Instr), s.turns = .write 0x000 b :: rest →
    decodeC b = .ok i → step s = exec i { s with turns := rest }) ∧
  (∀ s : State, s.phase ≠ .busy → (s.turns = [] → step s = .next s) ∧
    ∀ rest, s.turns = .sequencer :: rest → step s = .next { s with turns := rest })

/-! ## Invariants and safety -/

/-- Reset meets the three invariants. -/
def Obligations.ResetMeetsTheInvariants : Prop :=
  PhaseInv State.reset ∧ TraceInv State.reset ∧ KeyFileInv State.reset

/-- R22, R23: every step, of any agent, keeps the phase machine and the bounds of `pc`. -/
def Obligations.StepKeepsPhaseInvariant : Prop :=
  ∀ s t : State, PhaseInv s → step s = .next t → PhaseInv t

/-- R22: the only transitions of `phase`. -/
def Obligations.PhaseTransitions : Prop :=
  ∀ s t : State, PhaseInv s → step s = .next t →
    (t.phase = s.phase ∨
     (s.phase ≠ .busy ∧ t.phase = .busy ∧ t.pc = 0 ∧ ∃ b rest, s.turns = .write 0x000 b :: rest ∧ b.getLsbD 0 = true) ∨
     (s.phase = .busy ∧ t.phase = .done ∧ t.pc = s.pc + 1 ∧ t.pc.toNat = traceLength s.ALG_L) ∨
     (t.phase = .idle ∧ ∃ rest, s.turns = .reset :: rest))

/-- R176, R228, R33, R23: every step keeps the trace invariant: the words are the micro-program's, consecutive Steps
chain, and `OUT` at DONE is the last Step's `after`. -/
def Obligations.StepKeepsTraceInvariant : Prop :=
  ∀ s t : State, PhaseInv s → TraceInv s → step s = .next t → TraceInv t

/-- R29, R30, R304: every step keeps the key file equal to the schedule of `KEY` while it is read. -/
def Obligations.StepKeepsKeyFileInvariant : Prop :=
  ∀ s t : State, PhaseInv s → KeyFileInv s → step s = .next t → KeyFileInv t

/-- From R280, R104: from every state whatever, no step and no run of steps ends in a fault or a refusal; and in every
BUSY state that is reached from reset, whatever the environment does, the sequencer has a legal micro-op to run. -/
def Obligations.TheMachineNeverStops : Prop :=
  (∀ s : State, CanStep s) ∧ (∀ (n : Nat) (s : State), ∃ t, Runs n s t) ∧
  ∀ s : State, Reachable s → s.phase = .busy →
    ∃ w i, (rom s.ALG_L s.DIR_L)[s.pc.toNat]? = some w ∧ decodeU w = .ok i

/-! ## Whole runs -/

/-- R170 to R174, R172: 42 sequencer steps after START.AES the run is DONE, with the trace, the round keys and the
result that the big-step functions give, and nothing else changed. -/
def Obligations.AesRunComputesItsTrace : Prop :=
  ∀ s : State, s.phase = .busy → s.ALG_L = .aes → s.pc = 0 → s.turns = [] →
    ∃ t, Runs 42 s t ∧ t.phase = .done ∧ t.pc = 42 ∧ regValue t 0x002 = some 42 ∧
      t.OUT = byDir s.DIR_L (aesEncrypt s.MSG s.KEY) (aesDecrypt s.MSG s.KEY) ∧
      stateToBlock t.S = t.OUT ∧ t.RK = roundKeys s.KEY ∧
      (∀ j (h : j < 42), (aesTrace s.DIR_L s.MSG s.KEY)[j]? = some t.TRACE[j]) ∧
      t.V = s.V ∧ t.SK = s.SK ∧ InputsKept s t

/-- R220, R221, R227: 20 sequencer steps after START.DES the run is DONE, with the trace, the subkeys and the result
that the big-step functions give; `OUT[8..15]` is zero and `TRACE[20..41]` is not written. -/
def Obligations.DesRunComputesItsTrace : Prop :=
  ∀ s : State, s.phase = .busy → s.ALG_L = .des → s.pc = 0 → s.turns = [] →
    ∃ t, Runs 20 s t ∧ t.phase = .done ∧ t.pc = 20 ∧ regValue t 0x002 = some 20 ∧
      bitsOf8 t.OUT = desCrypt s.DIR_L (bitsOf8 s.MSG) (bitsOf8 s.KEY) ∧
      (∀ i, 8 ≤ i → i < 16 → byteOf t.OUT i = 0) ∧
      t.V = bitsOf8 t.OUT ∧ t.SK = desKeySchedule (bitsOf8 s.KEY) ∧
      (∀ j (h : j < 42), j < 20 → (desTrace s.DIR_L (bitsOf8 s.MSG) (bitsOf8 s.KEY))[j]? = some t.TRACE[j]) ∧
      (∀ j (h : j < 42), 20 ≤ j → t.TRACE[j] = s.TRACE[j]) ∧
      t.S = s.S ∧ t.RK = s.RK ∧ InputsKept s t

/-- R177: AES decryption undoes encryption, and encryption decryption, for every block and key. -/
def Obligations.AesRoundTrip : Prop :=
  (∀ B K : Block, aesDecrypt (aesEncrypt B K) K = B) ∧ (∀ B K : Block, aesEncrypt (aesDecrypt B K) K = B)

/-- R229: DES decryption undoes encryption, and encryption decryption, for every block and key. -/
def Obligations.DesRoundTrip : Prop :=
  (∀ B K : BitVec 64, desDecrypt (desEncrypt B K) K = B) ∧ (∀ B K : BitVec 64, desEncrypt (desDecrypt B K) K = B)

/-- From R177: the decrypt trace of an AES ciphertext walks the encrypt trace backwards, Step by Step. -/
def Obligations.AesDecryptWalksEncryptBackwards : Prop :=
  ∀ (B K : Block) (i : Nat), 2 ≤ i → i ≤ 41 → ∃ d e,
    (aesTrace .decrypt (aesEncrypt B K) K)[i]? = some d ∧ (aesTrace .encrypt B K)[43 - i]? = some e ∧
    d.after = e.before ∧ d.before = e.after

/-- From R229: the decrypt trace of a DES ciphertext passes through the encrypt trace's round states in reverse order
with halves exchanged, with the same subkeys and Feistel values, and ends in the plaintext. -/
def Obligations.DesDecryptWalksEncryptBackwards : Prop :=
  ∀ B K : BitVec 64,
    (∀ i, i ≤ 16 → ∃ d e, (desTrace .decrypt (desEncrypt B K) K)[1 + i]? = some d ∧
      (desTrace .encrypt B K)[17 - i]? = some e ∧ bitsOf8 d.after = swapHalves (bitsOf8 e.after)) ∧
    (∃ d e, (desTrace .decrypt (desEncrypt B K) K)[18]? = some d ∧ (desTrace .encrypt B K)[1]? = some e ∧
      d.after = e.after) ∧
    (∃ d e, (desTrace .decrypt (desEncrypt B K) K)[19]? = some d ∧ (desTrace .encrypt B K)[0]? = some e ∧
      d.after = e.after ∧ bitsOf8 d.after = B) ∧
    (∀ i, 1 ≤ i → i ≤ 16 → ∃ d e, (desTrace .decrypt (desEncrypt B K) K)[1 + i]? = some d ∧
      (desTrace .encrypt B K)[18 - i]? = some e ∧ d.aux_sk = e.aux_sk ∧ d.aux_e = e.aux_e ∧ d.aux_x = e.aux_x ∧
      d.aux_sb = e.aux_sb ∧ d.aux_f = e.aux_f)

/-- From R69, R68, R310: host reads and writes interleaved with a run change nothing of it: after the same number of
the sequencer's turns CORE is in the same state as without them. -/
def Obligations.HostAccessesDoNotDisturbARun : Prop :=
  ∀ (s : State) (l : List Turn) (n : Nat), PhaseInv s → s.phase = .busy →
    (∀ x ∈ l, x ≠ .reset) → l.count .sequencer = n → s.pc.toNat + n ≤ traceLength s.ALG_L →
    l.getLast? = some .sequencer →
    ∃ t u, Runs l.length { s with turns := l } t ∧ Runs n { s with turns := [] } u ∧ SameCore u t

/-- From R178, R228: the finished run is a function of `MSG`, `KEY`, `ALG`, `DIR` at START, and for DES of bytes 0..7 of
`MSG` and `KEY` alone: two runs on the same inputs, from states that differ in everything else, end in the same trace,
result, length and schedule. -/
def Obligations.RunsAreDeterministic : Prop :=
  ∀ (s s' : State) (a : Alg) (d : Dir), s.phase ≠ .busy → s'.phase ≠ .busy →
    (∀ i, i < blockSize a → byteOf s.MSG i = byteOf s'.MSG i ∧ byteOf s.KEY i = byteOf s'.KEY i) →
    ∃ t t', Runs (traceLength a) { s.startRun a d with turns := [] } t ∧
      Runs (traceLength a) { s'.startRun a d with turns := [] } t' ∧
      t.phase = .done ∧ t'.phase = .done ∧ t.pc = t'.pc ∧ t.OUT = t'.OUT ∧
      (∀ j (h : j < 42), j < traceLength a → t.TRACE[j] = t'.TRACE[j]) ∧
      (a = .aes → t.RK = t'.RK) ∧ (a = .des → t.SK = t'.SK)

/-! ## The host's side (46_host_commands.md R244, 47_host_codec.md) -/

/-- R261: `textToBlock` gives exactly `bs` bytes: the first characters' codes, then null bytes; the examples. -/
def Obligations.TextToBlockPadsAndTruncates : Prop :=
  (∀ (text : Text) (bs : Nat), (∀ c ∈ text, c ≤ 255) → (textToBlock text bs).length = bs ∧
    ∀ i, i < bs → (textToBlock text bs)[i]? =
      some (if h : i < text.length then BitVec.ofNat 8 text[i] else 0x00)) ∧
  (∀ bs, textToBlock [] bs = List.replicate bs 0x00) ∧
  textToBlock [72, 69, 76, 76, 79, 49, 50, 51] 8 = [0x48, 0x45, 0x4C, 0x4C, 0x4F, 0x31, 0x32, 0x33] ∧
  textToBlock [65, 66] 8 = [0x41, 0x42, 0x00, 0x00, 0x00, 0x00, 0x00, 0x00] ∧
  textToBlock [72, 69, 76, 76, 79, 32, 65, 69, 83, 32, 87, 79, 82, 76, 68, 33, 33] 16 =
    textToBlock [72, 69, 76, 76, 79, 32, 65, 69, 83, 32, 87, 79, 82, 76, 68, 33] 16 ∧
  textToBlock [72, 69, 76, 76, 79, 32, 65, 69, 83, 32, 87, 79, 82, 76, 68, 33] 16 =
    [0x48, 0x45, 0x4C, 0x4C, 0x4F, 0x20, 0x41, 0x45, 0x53, 0x20, 0x57, 0x4F, 0x52, 0x4C, 0x44, 0x21]

/-- The sixteen upper-case hex digits, by value: `0`..`9`, `A`..`F`. -/
def Sys2Proof.Claim.upperDigits : List Nat := [48, 49, 50, 51, 52, 53, 54, 55, 56, 57, 65, 66, 67, 68, 69, 70]

/-- From R265, R263: `blockToHex` gives two upper-case digits a byte, high nibble first; a block survives its hex
rendering, in lower case and with whitespace too; the examples. Which characters are whitespace is the model's reading,
log 17 (PRESUMED). -/
def Obligations.HexRoundTrip : Prop :=
  (∀ B : List Byte, (blockToHex B).length = 2 * B.length) ∧
  (∀ (B : List Byte) (i : Nat) (b : Byte), B[i]? = some b →
    (blockToHex B)[2 * i]? = upperDigits[b.toNat / 16]? ∧ (blockToHex B)[2 * i + 1]? = upperDigits[b.toNat % 16]?) ∧
  (∀ B : List Byte, hexToBlock (blockToHex B) B.length = B) ∧
  (∀ (B : List Byte) (h : Text), (h.filter (fun c => !isWhitespace c)).map upperHex = blockToHex B →
    hexToBlock h B.length = B) ∧
  blockToHex [0x04, 0xC0, 0x51, 0x48, 0x6F, 0x72, 0xC1, 0xF8] =
    [48, 52, 67, 48, 53, 49, 52, 56, 54, 70, 55, 50, 67, 49, 70, 56] ∧
  hexToBlock [48, 52, 32, 99, 48, 32, 53, 49] 8 = [0x04, 0xC0, 0x51, 0x00, 0x00, 0x00, 0x00, 0x00] ∧
  hexToBlock [48, 52, 67, 48, 53, 49, 52, 56, 54, 70, 55, 50, 67, 49, 70, 56, 70, 70] 8 =
    [0x04, 0xC0, 0x51, 0x48, 0x6F, 0x72, 0xC1, 0xF8]

/-- From R266: `blockToText` stops at the first null byte, keeps the codes 32..126 in order and skips every other byte;
printable text of at most `bs` characters survives the block and back; the examples. -/
def Obligations.PrintableTextRoundTrip : Prop :=
  (∀ B : List Byte, blockToText B =
    ((B.takeWhile (fun b => b != 0x00)).filter (fun b => decide (32 ≤ b.toNat ∧ b.toNat ≤ 126))).map BitVec.toNat) ∧
  (∀ (t : Text) (bs : Nat), t.length ≤ bs → (∀ c ∈ t, 32 ≤ c ∧ c ≤ 126) → blockToText (textToBlock t bs) = t) ∧
  blockToText [0x48, 0x45, 0x4C, 0x4C, 0x4F, 0x31, 0x32, 0x33] = [72, 69, 76, 76, 79, 49, 50, 51] ∧
  blockToText [0x41, 0x42, 0x00, 0x43] = [65, 66] ∧
  blockToText [0x04, 0xC0, 0x51, 0x48, 0x6F, 0x72, 0xC1, 0xF8] = [81, 72, 111, 114] ∧
  blockToText [0x39, 0xF9, 0x0C, 0x18, 0x37, 0xB2, 0x53, 0x26, 0x92, 0x33, 0xF9, 0x2B, 0xB2, 0x2F, 0xED, 0x44] =
    [57, 55, 83, 38, 51, 43, 47, 68]

/-- From R244, R303: from any state that is not BUSY, runCipher's writes load the message and the key and start the
run. -/
def Obligations.RunCipherLoadsAndStarts : Prop :=
  ∀ (s : State) (a : Alg) (d : Dir) (message key : Text) (rest : List Turn), s.phase ≠ .busy →
    ∃ t, Runs (2 * blockSize a + 1) { s with turns := runCipherLoad a d message key ++ rest } t ∧
      t.phase = .busy ∧ t.pc = 0 ∧ t.ALG_L = a ∧ t.DIR_L = d ∧ t.TIDX = s.TIDX ∧ t.turns = rest ∧
      (∀ i : Fin 16, i.val < blockSize a →
        some t.MSG[i] = (messageBlock a d message)[i.val]? ∧ some t.KEY[i] = (keyBlock a key)[i.val]?) ∧
      (∀ i : Fin 16, blockSize a ≤ i.val → t.MSG[i] = s.MSG[i] ∧ t.KEY[i] = s.KEY[i])

/-- The trace of a run on the given blocks: the whole blocks for AES, bytes 0..7 for DES (R171, R174, R227). -/
def Sys2Proof.Claim.traceOf (a : Alg) (d : Dir) (M K : Block) : List StepRecord :=
  match a with
  | .aes => aesTrace d M K
  | .des => desTrace d (bitsOf8 M) (bitsOf8 K)

/-- The bytes of the final block: 16 for AES, 8 for DES (R170, R173, R220). -/
def Sys2Proof.Claim.finalOf (a : Alg) (d : Dir) (M K : Block) : List Byte :=
  match a with
  | .aes => (byDir d (aesEncrypt M K) (aesDecrypt M K)).toList
  | .des => (desImage (desCrypt d (bitsOf8 M) (bitsOf8 K))).toList.take 8

/-- From R244, R6, R243, R310: runCipher from any state that is not BUSY. `M` and `K` are the message and key blocks of
the codec: the message is text when encrypting and hex when decrypting, the key is always text. Under every schedule of
polls and sequencer turns that lets the run end, it returns the whole Trace, read record by record through the window,
and the final block as hex and as text, and leaves CORE in DONE; under a schedule too short for that the host is still
polling and has read no result. -/
def Obligations.RunCipherReturnsTheTrace : Prop :=
  ∀ (s : State) (a : Alg) (d : Dir) (message key : Text) (schedule : List Nat) (M K : Block), s.phase ≠ .busy →
    M.toList.take (blockSize a) = byDir d (textToBlock message (blockSize a)) (hexToBlock message (blockSize a)) →
    K.toList.take (blockSize a) = textToBlock key (blockSize a) →
    (traceLength a ≤ schedule.sum → ∃ t, runCipher a d message key schedule s =
      some ({ trace := traceOf a d M K, hex := blockToHex (finalOf a d M K), text := blockToText (finalOf a d M K) }, t) ∧
      t.phase = .done ∧ t.ALG_L = a ∧ t.DIR_L = d) ∧
    (schedule.sum < traceLength a → runCipher a d message key schedule s = none)
end

