-- ==== Sys2Proof/Laws/Data.lean ====
section
/-! SUPPORT. One spec lemma per data function: what a byte, a column or a bit of its result is. Provers cite these and
do not unfold the functions. -/

namespace Sys2Proof.Machine

/-! ### AES: bytes of a State and of a Block -/

@[simp] theorem getElem_buildAes (f : Fin 4 → Fin 4 → Byte) (r c : Fin 4) : (buildAes f)[r][c] = f r c := by
  simp [buildAes]

@[simp] theorem getElem_buildAes_nat (f : Fin 4 → Fin 4 → Byte) (r c : Nat) (hr : r < 4) (hc : c < 4) :
    (buildAes f)[r][c] = f ⟨r, hr⟩ ⟨c, hc⟩ := by
  simp [buildAes]

@[simp] theorem getElem_buildBlock (f : Fin 16 → Byte) (i : Nat) (h : i < 16) : (buildBlock f)[i] = f ⟨i, h⟩ := by
  simp [buildBlock]

@[simp] theorem getElem_buildWord (f : Fin 4 → Byte) (i : Nat) (h : i < 4) : (buildWord f)[i] = f ⟨i, h⟩ := by
  simp [buildWord]

theorem byteOf_eq (b : Block) (i : Nat) (h : i < 16) : byteOf b i = b[i] := by
  simp [byteOf, h]

/-- Two States with the same sixteen bytes are equal. -/
theorem aes_ext {S T : AesState} (h : ∀ r c : Fin 4, S[r][c] = T[r][c]) : S = T := by
  apply Vector.ext
  intro r hr
  apply Vector.ext
  intro c hc
  exact h ⟨r, hr⟩ ⟨c, hc⟩

/-- Two Blocks with the same sixteen bytes are equal. -/
theorem block_ext {A B : Block} (h : ∀ i : Fin 16, A[i] = B[i]) : A = B := by
  apply Vector.ext
  intro i hi
  exact h ⟨i, hi⟩

theorem getElem_subBytes (S : AesState) (r c : Fin 4) : (subBytes S)[r][c] = SBOX S[r][c] := by
  simp [subBytes]

theorem getElem_invSubBytes (S : AesState) (r c : Fin 4) : (invSubBytes S)[r][c] = INV_SBOX S[r][c] := by
  simp [invSubBytes]

theorem getElem_shiftRows (S : AesState) (r c : Fin 4) : (shiftRows S)[r][c] = S[r][c + r] := by
  simp [shiftRows]

theorem getElem_invShiftRows (S : AesState) (r c : Fin 4) : (invShiftRows S)[r][c] = S[r][c - r] := by
  simp [invShiftRows]

theorem getElem_addRoundKey (S K : AesState) (r c : Fin 4) : (addRoundKey S K)[r][c] = S[r][c] ^^^ K[r][c] := by
  simp [addRoundKey]

theorem getElem_mixWith (M : Vector (Vector Byte 4) 4) (S : AesState) (r c : Fin 4) :
    (mixWith M S)[r][c] =
      gmul M[r][0] S[0][c] ^^^ gmul M[r][1] S[1][c] ^^^ gmul M[r][2] S[2][c] ^^^ gmul M[r][3] S[3][c] := by
  simp [mixWith]

theorem getElem_blockToState (B : Block) (r c : Fin 4) : (blockToState B)[r][c] = B[r.val + 4 * c.val] := by
  simp [blockToState]

theorem getElem_stateToBlock (S : AesState) (i : Nat) (h : i < 16) :
    (stateToBlock S)[i] = S[i % 4][i / 4] := by
  simp [stateToBlock]

/-- Every round key is the four words `W[4r..4r+3]` as columns. -/
theorem getElem_roundKeys (K : Block) (k : Nat) (h : k < 11) : (roundKeys K)[k] = roundKeyOf (keyExpansion K) k := by
  simp [roundKeys]

@[simp] theorem length_keyWords (K : Block) (n : Nat) : (keyWords K n).length = n + 4 := by
  induction n with
  | zero => rfl
  | succ n ih => simp [keyWords, ih]

theorem length_keyExpansion (K : Block) : (keyExpansion K).length = 44 := by simp [keyExpansion]

/-! ### DES: bits of a BitVector -/

/-- Appending one bit at a time: the positions of the prefix stay, the new bit is the last position. -/
theorem bitAt_foldl_shiftConcat (n m : Nat) (hm : m ≤ n) (f : Nat → Bool) (i : Nat) :
    ((List.range m).foldl (fun acc j => acc.shiftConcat (f (j + 1))) 0#n).getLsbD i =
      (decide (i < m) && f (m - i)) := by
  induction m generalizing i with
  | zero => simp
  | succ m ih =>
    rw [List.range_succ, List.foldl_append]
    simp only [List.foldl_cons, List.foldl_nil, BitVec.getLsbD_shiftConcat]
    cases i with
    | zero => simp; omega
    | succ i =>
      rw [ih (by omega)]
      simp only [Nat.add_one_ne_zero, ↓reduceIte, Nat.add_sub_cancel, Nat.add_lt_add_iff_right,
        Nat.add_sub_add_right]
      by_cases h : i < m <;> simp [h]
      omega

@[simp] theorem bitAt_ofPositions (n : Nat) (f : Nat → Bool) (p : Nat) (h1 : 1 ≤ p) (hn : p ≤ n) :
    bitAt (ofPositions n f) p = f p := by
  unfold bitAt ofPositions
  rw [BitVec.getMsbD_eq_getLsbD, bitAt_foldl_shiftConcat n n (Nat.le_refl n)]
  have h2 : p - 1 < n := by omega
  have h3 : n - 1 - (p - 1) < n := by omega
  have h4 : n - (n - 1 - (p - 1)) = p := by omega
  simp [h2, h3, h4]

/-- The rule of a table (R190): output position `j` takes the bit at the position the table names. -/
theorem bitAt_permute {n : Nat} (m : Nat) (T : List Nat) (V : BitVec n) (j : Nat) (h1 : 1 ≤ j) (hm : j ≤ m) :
    bitAt (permute m T V) j = bitAt V (T.getD (j - 1) 0) := by
  simp [permute, h1, hm]

/-- Two BitVectors with the same bit at every position are equal. -/
theorem bits_ext {n : Nat} {V W : BitVec n} (h : ∀ p, 1 ≤ p → p ≤ n → bitAt V p = bitAt W p) : V = W := by
  apply BitVec.eq_of_getMsbD_eq
  intro i hi
  simpa [bitAt] using h (i + 1) (by omega) (by omega)

theorem getElem_desKeySchedule (K : BitVec 64) (k : Nat) (h : k < 16) : (desKeySchedule K)[k] = subkey K k := by
  simp [desKeySchedule]

@[simp] theorem leftHalf_append (L R : BitVec 32) : leftHalf (L ++ R) = L := by
  apply BitVec.eq_of_getLsbD_eq
  intro i hi
  have h := BitVec.getLsbD_append (x := L) (y := R) (i := 32 + i)
  have h32 : ¬ 32 + i < 32 := by omega
  simp only [h32, Nat.add_sub_cancel_left] at h
  rw [leftHalf, BitVec.getLsbD_extractLsb', decide_eq_true hi, Bool.true_and]
  exact h

@[simp] theorem rightHalf_append (L R : BitVec 32) : rightHalf (L ++ R) = R := by
  apply BitVec.eq_of_getLsbD_eq
  intro i hi
  have h := BitVec.getLsbD_append (x := L) (y := R) (i := i)
  simp only [hi] at h
  rw [rightHalf, BitVec.getLsbD_extractLsb', decide_eq_true hi, Bool.true_and, Nat.zero_add]
  exact h

/-- A vector is the concatenation of its halves (R28). -/
theorem halves_append (V : BitVec 64) : leftHalf V ++ rightHalf V = V := by
  apply BitVec.eq_of_getLsbD_eq
  intro i hi
  have h := BitVec.getLsbD_append (x := leftHalf V) (y := rightHalf V) (i := i)
  refine h.trans ?_
  by_cases hlt : i < 32
  · simp [hlt, rightHalf]
  · have h1 : i - 32 < 32 := by omega
    have h2 : 32 + (i - 32) = i := by omega
    simp [hlt, h1, h2, leftHalf]

end Sys2Proof.Machine
end

