-- ==== Sys2Proof/Laws/State.lean ====
section
/-! SUPPORT. One lemma per field per named update of State (10_state.md R21), each by `rfl`, so that no later proof
unfolds a record update. -/

namespace Sys2Proof.Machine

/-! ### withTurns -/

@[simp] theorem State.withTurns_phase (s : State) (rest : List Turn) :
    (s.withTurns rest).phase = s.phase := rfl
@[simp] theorem State.withTurns_pc (s : State) (rest : List Turn) :
    (s.withTurns rest).pc = s.pc := rfl
@[simp] theorem State.withTurns_ALG_L (s : State) (rest : List Turn) :
    (s.withTurns rest).ALG_L = s.ALG_L := rfl
@[simp] theorem State.withTurns_DIR_L (s : State) (rest : List Turn) :
    (s.withTurns rest).DIR_L = s.DIR_L := rfl
@[simp] theorem State.withTurns_TIDX (s : State) (rest : List Turn) :
    (s.withTurns rest).TIDX = s.TIDX := rfl
@[simp] theorem State.withTurns_MSG (s : State) (rest : List Turn) :
    (s.withTurns rest).MSG = s.MSG := rfl
@[simp] theorem State.withTurns_KEY (s : State) (rest : List Turn) :
    (s.withTurns rest).KEY = s.KEY := rfl
@[simp] theorem State.withTurns_S (s : State) (rest : List Turn) :
    (s.withTurns rest).S = s.S := rfl
@[simp] theorem State.withTurns_V (s : State) (rest : List Turn) :
    (s.withTurns rest).V = s.V := rfl
@[simp] theorem State.withTurns_RK (s : State) (rest : List Turn) :
    (s.withTurns rest).RK = s.RK := rfl
@[simp] theorem State.withTurns_SK (s : State) (rest : List Turn) :
    (s.withTurns rest).SK = s.SK := rfl
@[simp] theorem State.withTurns_TRACE (s : State) (rest : List Turn) :
    (s.withTurns rest).TRACE = s.TRACE := rfl
@[simp] theorem State.withTurns_OUT (s : State) (rest : List Turn) :
    (s.withTurns rest).OUT = s.OUT := rfl
@[simp] theorem State.withTurns_turns (s : State) (rest : List Turn) :
    (s.withTurns rest).turns = rest := rfl
@[simp] theorem State.withTurns_reads (s : State) (rest : List Turn) :
    (s.withTurns rest).reads = s.reads := rfl
@[simp] theorem State.withTurns_draws (s : State) (rest : List Turn) :
    (s.withTurns rest).draws = s.draws := rfl

/-! ### setS -/

@[simp] theorem State.setS_phase (s : State) (v : AesState) :
    (s.setS v).phase = s.phase := rfl
@[simp] theorem State.setS_pc (s : State) (v : AesState) :
    (s.setS v).pc = s.pc := rfl
@[simp] theorem State.setS_ALG_L (s : State) (v : AesState) :
    (s.setS v).ALG_L = s.ALG_L := rfl
@[simp] theorem State.setS_DIR_L (s : State) (v : AesState) :
    (s.setS v).DIR_L = s.DIR_L := rfl
@[simp] theorem State.setS_TIDX (s : State) (v : AesState) :
    (s.setS v).TIDX = s.TIDX := rfl
@[simp] theorem State.setS_MSG (s : State) (v : AesState) :
    (s.setS v).MSG = s.MSG := rfl
@[simp] theorem State.setS_KEY (s : State) (v : AesState) :
    (s.setS v).KEY = s.KEY := rfl
@[simp] theorem State.setS_S (s : State) (v : AesState) :
    (s.setS v).S = v := rfl
@[simp] theorem State.setS_V (s : State) (v : AesState) :
    (s.setS v).V = s.V := rfl
@[simp] theorem State.setS_RK (s : State) (v : AesState) :
    (s.setS v).RK = s.RK := rfl
@[simp] theorem State.setS_SK (s : State) (v : AesState) :
    (s.setS v).SK = s.SK := rfl
@[simp] theorem State.setS_TRACE (s : State) (v : AesState) :
    (s.setS v).TRACE = s.TRACE := rfl
@[simp] theorem State.setS_OUT (s : State) (v : AesState) :
    (s.setS v).OUT = s.OUT := rfl
@[simp] theorem State.setS_turns (s : State) (v : AesState) :
    (s.setS v).turns = s.turns := rfl
@[simp] theorem State.setS_reads (s : State) (v : AesState) :
    (s.setS v).reads = s.reads := rfl
@[simp] theorem State.setS_draws (s : State) (v : AesState) :
    (s.setS v).draws = s.draws := rfl

/-! ### setV -/

@[simp] theorem State.setV_phase (s : State) (v : BitVec 64) :
    (s.setV v).phase = s.phase := rfl
@[simp] theorem State.setV_pc (s : State) (v : BitVec 64) :
    (s.setV v).pc = s.pc := rfl
@[simp] theorem State.setV_ALG_L (s : State) (v : BitVec 64) :
    (s.setV v).ALG_L = s.ALG_L := rfl
@[simp] theorem State.setV_DIR_L (s : State) (v : BitVec 64) :
    (s.setV v).DIR_L = s.DIR_L := rfl
@[simp] theorem State.setV_TIDX (s : State) (v : BitVec 64) :
    (s.setV v).TIDX = s.TIDX := rfl
@[simp] theorem State.setV_MSG (s : State) (v : BitVec 64) :
    (s.setV v).MSG = s.MSG := rfl
@[simp] theorem State.setV_KEY (s : State) (v : BitVec 64) :
    (s.setV v).KEY = s.KEY := rfl
@[simp] theorem State.setV_S (s : State) (v : BitVec 64) :
    (s.setV v).S = s.S := rfl
@[simp] theorem State.setV_V (s : State) (v : BitVec 64) :
    (s.setV v).V = v := rfl
@[simp] theorem State.setV_RK (s : State) (v : BitVec 64) :
    (s.setV v).RK = s.RK := rfl
@[simp] theorem State.setV_SK (s : State) (v : BitVec 64) :
    (s.setV v).SK = s.SK := rfl
@[simp] theorem State.setV_TRACE (s : State) (v : BitVec 64) :
    (s.setV v).TRACE = s.TRACE := rfl
@[simp] theorem State.setV_OUT (s : State) (v : BitVec 64) :
    (s.setV v).OUT = s.OUT := rfl
@[simp] theorem State.setV_turns (s : State) (v : BitVec 64) :
    (s.setV v).turns = s.turns := rfl
@[simp] theorem State.setV_reads (s : State) (v : BitVec 64) :
    (s.setV v).reads = s.reads := rfl
@[simp] theorem State.setV_draws (s : State) (v : BitVec 64) :
    (s.setV v).draws = s.draws := rfl

/-! ### setRK -/

@[simp] theorem State.setRK_phase (s : State) (v : Vector AesState 11) :
    (s.setRK v).phase = s.phase := rfl
@[simp] theorem State.setRK_pc (s : State) (v : Vector AesState 11) :
    (s.setRK v).pc = s.pc := rfl
@[simp] theorem State.setRK_ALG_L (s : State) (v : Vector AesState 11) :
    (s.setRK v).ALG_L = s.ALG_L := rfl
@[simp] theorem State.setRK_DIR_L (s : State) (v : Vector AesState 11) :
    (s.setRK v).DIR_L = s.DIR_L := rfl
@[simp] theorem State.setRK_TIDX (s : State) (v : Vector AesState 11) :
    (s.setRK v).TIDX = s.TIDX := rfl
@[simp] theorem State.setRK_MSG (s : State) (v : Vector AesState 11) :
    (s.setRK v).MSG = s.MSG := rfl
@[simp] theorem State.setRK_KEY (s : State) (v : Vector AesState 11) :
    (s.setRK v).KEY = s.KEY := rfl
@[simp] theorem State.setRK_S (s : State) (v : Vector AesState 11) :
    (s.setRK v).S = s.S := rfl
@[simp] theorem State.setRK_V (s : State) (v : Vector AesState 11) :
    (s.setRK v).V = s.V := rfl
@[simp] theorem State.setRK_RK (s : State) (v : Vector AesState 11) :
    (s.setRK v).RK = v := rfl
@[simp] theorem State.setRK_SK (s : State) (v : Vector AesState 11) :
    (s.setRK v).SK = s.SK := rfl
@[simp] theorem State.setRK_TRACE (s : State) (v : Vector AesState 11) :
    (s.setRK v).TRACE = s.TRACE := rfl
@[simp] theorem State.setRK_OUT (s : State) (v : Vector AesState 11) :
    (s.setRK v).OUT = s.OUT := rfl
@[simp] theorem State.setRK_turns (s : State) (v : Vector AesState 11) :
    (s.setRK v).turns = s.turns := rfl
@[simp] theorem State.setRK_reads (s : State) (v : Vector AesState 11) :
    (s.setRK v).reads = s.reads := rfl
@[simp] theorem State.setRK_draws (s : State) (v : Vector AesState 11) :
    (s.setRK v).draws = s.draws := rfl

/-! ### setSK -/

@[simp] theorem State.setSK_phase (s : State) (v : Vector (BitVec 48) 16) :
    (s.setSK v).phase = s.phase := rfl
@[simp] theorem State.setSK_pc (s : State) (v : Vector (BitVec 48) 16) :
    (s.setSK v).pc = s.pc := rfl
@[simp] theorem State.setSK_ALG_L (s : State) (v : Vector (BitVec 48) 16) :
    (s.setSK v).ALG_L = s.ALG_L := rfl
@[simp] theorem State.setSK_DIR_L (s : State) (v : Vector (BitVec 48) 16) :
    (s.setSK v).DIR_L = s.DIR_L := rfl
@[simp] theorem State.setSK_TIDX (s : State) (v : Vector (BitVec 48) 16) :
    (s.setSK v).TIDX = s.TIDX := rfl
@[simp] theorem State.setSK_MSG (s : State) (v : Vector (BitVec 48) 16) :
    (s.setSK v).MSG = s.MSG := rfl
@[simp] theorem State.setSK_KEY (s : State) (v : Vector (BitVec 48) 16) :
    (s.setSK v).KEY = s.KEY := rfl
@[simp] theorem State.setSK_S (s : State) (v : Vector (BitVec 48) 16) :
    (s.setSK v).S = s.S := rfl
@[simp] theorem State.setSK_V (s : State) (v : Vector (BitVec 48) 16) :
    (s.setSK v).V = s.V := rfl
@[simp] theorem State.setSK_RK (s : State) (v : Vector (BitVec 48) 16) :
    (s.setSK v).RK = s.RK := rfl
@[simp] theorem State.setSK_SK (s : State) (v : Vector (BitVec 48) 16) :
    (s.setSK v).SK = v := rfl
@[simp] theorem State.setSK_TRACE (s : State) (v : Vector (BitVec 48) 16) :
    (s.setSK v).TRACE = s.TRACE := rfl
@[simp] theorem State.setSK_OUT (s : State) (v : Vector (BitVec 48) 16) :
    (s.setSK v).OUT = s.OUT := rfl
@[simp] theorem State.setSK_turns (s : State) (v : Vector (BitVec 48) 16) :
    (s.setSK v).turns = s.turns := rfl
@[simp] theorem State.setSK_reads (s : State) (v : Vector (BitVec 48) 16) :
    (s.setSK v).reads = s.reads := rfl
@[simp] theorem State.setSK_draws (s : State) (v : Vector (BitVec 48) 16) :
    (s.setSK v).draws = s.draws := rfl

/-! ### setTIDX -/

@[simp] theorem State.setTIDX_phase (s : State) (b : Byte) :
    (s.setTIDX b).phase = s.phase := rfl
@[simp] theorem State.setTIDX_pc (s : State) (b : Byte) :
    (s.setTIDX b).pc = s.pc := rfl
@[simp] theorem State.setTIDX_ALG_L (s : State) (b : Byte) :
    (s.setTIDX b).ALG_L = s.ALG_L := rfl
@[simp] theorem State.setTIDX_DIR_L (s : State) (b : Byte) :
    (s.setTIDX b).DIR_L = s.DIR_L := rfl
@[simp] theorem State.setTIDX_TIDX (s : State) (b : Byte) :
    (s.setTIDX b).TIDX = b.extractLsb' 0 6 := rfl
@[simp] theorem State.setTIDX_MSG (s : State) (b : Byte) :
    (s.setTIDX b).MSG = s.MSG := rfl
@[simp] theorem State.setTIDX_KEY (s : State) (b : Byte) :
    (s.setTIDX b).KEY = s.KEY := rfl
@[simp] theorem State.setTIDX_S (s : State) (b : Byte) :
    (s.setTIDX b).S = s.S := rfl
@[simp] theorem State.setTIDX_V (s : State) (b : Byte) :
    (s.setTIDX b).V = s.V := rfl
@[simp] theorem State.setTIDX_RK (s : State) (b : Byte) :
    (s.setTIDX b).RK = s.RK := rfl
@[simp] theorem State.setTIDX_SK (s : State) (b : Byte) :
    (s.setTIDX b).SK = s.SK := rfl
@[simp] theorem State.setTIDX_TRACE (s : State) (b : Byte) :
    (s.setTIDX b).TRACE = s.TRACE := rfl
@[simp] theorem State.setTIDX_OUT (s : State) (b : Byte) :
    (s.setTIDX b).OUT = s.OUT := rfl
@[simp] theorem State.setTIDX_turns (s : State) (b : Byte) :
    (s.setTIDX b).turns = s.turns := rfl
@[simp] theorem State.setTIDX_reads (s : State) (b : Byte) :
    (s.setTIDX b).reads = s.reads := rfl
@[simp] theorem State.setTIDX_draws (s : State) (b : Byte) :
    (s.setTIDX b).draws = s.draws := rfl

/-! ### setMSG -/

@[simp] theorem State.setMSG_phase (s : State) (i : Nat) (b : Byte) :
    (s.setMSG i b).phase = s.phase := rfl
@[simp] theorem State.setMSG_pc (s : State) (i : Nat) (b : Byte) :
    (s.setMSG i b).pc = s.pc := rfl
@[simp] theorem State.setMSG_ALG_L (s : State) (i : Nat) (b : Byte) :
    (s.setMSG i b).ALG_L = s.ALG_L := rfl
@[simp] theorem State.setMSG_DIR_L (s : State) (i : Nat) (b : Byte) :
    (s.setMSG i b).DIR_L = s.DIR_L := rfl
@[simp] theorem State.setMSG_TIDX (s : State) (i : Nat) (b : Byte) :
    (s.setMSG i b).TIDX = s.TIDX := rfl
@[simp] theorem State.setMSG_MSG (s : State) (i : Nat) (b : Byte) :
    (s.setMSG i b).MSG = s.MSG.setIfInBounds i b := rfl
@[simp] theorem State.setMSG_KEY (s : State) (i : Nat) (b : Byte) :
    (s.setMSG i b).KEY = s.KEY := rfl
@[simp] theorem State.setMSG_S (s : State) (i : Nat) (b : Byte) :
    (s.setMSG i b).S = s.S := rfl
@[simp] theorem State.setMSG_V (s : State) (i : Nat) (b : Byte) :
    (s.setMSG i b).V = s.V := rfl
@[simp] theorem State.setMSG_RK (s : State) (i : Nat) (b : Byte) :
    (s.setMSG i b).RK = s.RK := rfl
@[simp] theorem State.setMSG_SK (s : State) (i : Nat) (b : Byte) :
    (s.setMSG i b).SK = s.SK := rfl
@[simp] theorem State.setMSG_TRACE (s : State) (i : Nat) (b : Byte) :
    (s.setMSG i b).TRACE = s.TRACE := rfl
@[simp] theorem State.setMSG_OUT (s : State) (i : Nat) (b : Byte) :
    (s.setMSG i b).OUT = s.OUT := rfl
@[simp] theorem State.setMSG_turns (s : State) (i : Nat) (b : Byte) :
    (s.setMSG i b).turns = s.turns := rfl
@[simp] theorem State.setMSG_reads (s : State) (i : Nat) (b : Byte) :
    (s.setMSG i b).reads = s.reads := rfl
@[simp] theorem State.setMSG_draws (s : State) (i : Nat) (b : Byte) :
    (s.setMSG i b).draws = s.draws := rfl

/-! ### setKEY -/

@[simp] theorem State.setKEY_phase (s : State) (i : Nat) (b : Byte) :
    (s.setKEY i b).phase = s.phase := rfl
@[simp] theorem State.setKEY_pc (s : State) (i : Nat) (b : Byte) :
    (s.setKEY i b).pc = s.pc := rfl
@[simp] theorem State.setKEY_ALG_L (s : State) (i : Nat) (b : Byte) :
    (s.setKEY i b).ALG_L = s.ALG_L := rfl
@[simp] theorem State.setKEY_DIR_L (s : State) (i : Nat) (b : Byte) :
    (s.setKEY i b).DIR_L = s.DIR_L := rfl
@[simp] theorem State.setKEY_TIDX (s : State) (i : Nat) (b : Byte) :
    (s.setKEY i b).TIDX = s.TIDX := rfl
@[simp] theorem State.setKEY_MSG (s : State) (i : Nat) (b : Byte) :
    (s.setKEY i b).MSG = s.MSG := rfl
@[simp] theorem State.setKEY_KEY (s : State) (i : Nat) (b : Byte) :
    (s.setKEY i b).KEY = s.KEY.setIfInBounds i b := rfl
@[simp] theorem State.setKEY_S (s : State) (i : Nat) (b : Byte) :
    (s.setKEY i b).S = s.S := rfl
@[simp] theorem State.setKEY_V (s : State) (i : Nat) (b : Byte) :
    (s.setKEY i b).V = s.V := rfl
@[simp] theorem State.setKEY_RK (s : State) (i : Nat) (b : Byte) :
    (s.setKEY i b).RK = s.RK := rfl
@[simp] theorem State.setKEY_SK (s : State) (i : Nat) (b : Byte) :
    (s.setKEY i b).SK = s.SK := rfl
@[simp] theorem State.setKEY_TRACE (s : State) (i : Nat) (b : Byte) :
    (s.setKEY i b).TRACE = s.TRACE := rfl
@[simp] theorem State.setKEY_OUT (s : State) (i : Nat) (b : Byte) :
    (s.setKEY i b).OUT = s.OUT := rfl
@[simp] theorem State.setKEY_turns (s : State) (i : Nat) (b : Byte) :
    (s.setKEY i b).turns = s.turns := rfl
@[simp] theorem State.setKEY_reads (s : State) (i : Nat) (b : Byte) :
    (s.setKEY i b).reads = s.reads := rfl
@[simp] theorem State.setKEY_draws (s : State) (i : Nat) (b : Byte) :
    (s.setKEY i b).draws = s.draws := rfl

/-! ### logRead -/

@[simp] theorem State.logRead_phase (s : State) (off : Offset) (b : Byte) :
    (s.logRead off b).phase = s.phase := rfl
@[simp] theorem State.logRead_pc (s : State) (off : Offset) (b : Byte) :
    (s.logRead off b).pc = s.pc := rfl
@[simp] theorem State.logRead_ALG_L (s : State) (off : Offset) (b : Byte) :
    (s.logRead off b).ALG_L = s.ALG_L := rfl
@[simp] theorem State.logRead_DIR_L (s : State) (off : Offset) (b : Byte) :
    (s.logRead off b).DIR_L = s.DIR_L := rfl
@[simp] theorem State.logRead_TIDX (s : State) (off : Offset) (b : Byte) :
    (s.logRead off b).TIDX = s.TIDX := rfl
@[simp] theorem State.logRead_MSG (s : State) (off : Offset) (b : Byte) :
    (s.logRead off b).MSG = s.MSG := rfl
@[simp] theorem State.logRead_KEY (s : State) (off : Offset) (b : Byte) :
    (s.logRead off b).KEY = s.KEY := rfl
@[simp] theorem State.logRead_S (s : State) (off : Offset) (b : Byte) :
    (s.logRead off b).S = s.S := rfl
@[simp] theorem State.logRead_V (s : State) (off : Offset) (b : Byte) :
    (s.logRead off b).V = s.V := rfl
@[simp] theorem State.logRead_RK (s : State) (off : Offset) (b : Byte) :
    (s.logRead off b).RK = s.RK := rfl
@[simp] theorem State.logRead_SK (s : State) (off : Offset) (b : Byte) :
    (s.logRead off b).SK = s.SK := rfl
@[simp] theorem State.logRead_TRACE (s : State) (off : Offset) (b : Byte) :
    (s.logRead off b).TRACE = s.TRACE := rfl
@[simp] theorem State.logRead_OUT (s : State) (off : Offset) (b : Byte) :
    (s.logRead off b).OUT = s.OUT := rfl
@[simp] theorem State.logRead_turns (s : State) (off : Offset) (b : Byte) :
    (s.logRead off b).turns = s.turns := rfl
@[simp] theorem State.logRead_reads (s : State) (off : Offset) (b : Byte) :
    (s.logRead off b).reads = ⟨off, b⟩ :: s.reads := rfl
@[simp] theorem State.logRead_draws (s : State) (off : Offset) (b : Byte) :
    (s.logRead off b).draws = s.draws := rfl

/-! ### countDraw -/

@[simp] theorem State.countDraw_phase (s : State) :
    (s.countDraw).phase = s.phase := rfl
@[simp] theorem State.countDraw_pc (s : State) :
    (s.countDraw).pc = s.pc := rfl
@[simp] theorem State.countDraw_ALG_L (s : State) :
    (s.countDraw).ALG_L = s.ALG_L := rfl
@[simp] theorem State.countDraw_DIR_L (s : State) :
    (s.countDraw).DIR_L = s.DIR_L := rfl
@[simp] theorem State.countDraw_TIDX (s : State) :
    (s.countDraw).TIDX = s.TIDX := rfl
@[simp] theorem State.countDraw_MSG (s : State) :
    (s.countDraw).MSG = s.MSG := rfl
@[simp] theorem State.countDraw_KEY (s : State) :
    (s.countDraw).KEY = s.KEY := rfl
@[simp] theorem State.countDraw_S (s : State) :
    (s.countDraw).S = s.S := rfl
@[simp] theorem State.countDraw_V (s : State) :
    (s.countDraw).V = s.V := rfl
@[simp] theorem State.countDraw_RK (s : State) :
    (s.countDraw).RK = s.RK := rfl
@[simp] theorem State.countDraw_SK (s : State) :
    (s.countDraw).SK = s.SK := rfl
@[simp] theorem State.countDraw_TRACE (s : State) :
    (s.countDraw).TRACE = s.TRACE := rfl
@[simp] theorem State.countDraw_OUT (s : State) :
    (s.countDraw).OUT = s.OUT := rfl
@[simp] theorem State.countDraw_turns (s : State) :
    (s.countDraw).turns = s.turns := rfl
@[simp] theorem State.countDraw_reads (s : State) :
    (s.countDraw).reads = s.reads := rfl
@[simp] theorem State.countDraw_draws (s : State) :
    (s.countDraw).draws = s.draws + 1 := rfl

/-! ### startRun -/

@[simp] theorem State.startRun_phase (s : State) (alg : Alg) (dir : Dir) :
    (s.startRun alg dir).phase = .busy := rfl
@[simp] theorem State.startRun_pc (s : State) (alg : Alg) (dir : Dir) :
    (s.startRun alg dir).pc = 0 := rfl
@[simp] theorem State.startRun_ALG_L (s : State) (alg : Alg) (dir : Dir) :
    (s.startRun alg dir).ALG_L = alg := rfl
@[simp] theorem State.startRun_DIR_L (s : State) (alg : Alg) (dir : Dir) :
    (s.startRun alg dir).DIR_L = dir := rfl
@[simp] theorem State.startRun_TIDX (s : State) (alg : Alg) (dir : Dir) :
    (s.startRun alg dir).TIDX = s.TIDX := rfl
@[simp] theorem State.startRun_MSG (s : State) (alg : Alg) (dir : Dir) :
    (s.startRun alg dir).MSG = s.MSG := rfl
@[simp] theorem State.startRun_KEY (s : State) (alg : Alg) (dir : Dir) :
    (s.startRun alg dir).KEY = s.KEY := rfl
@[simp] theorem State.startRun_S (s : State) (alg : Alg) (dir : Dir) :
    (s.startRun alg dir).S = s.S := rfl
@[simp] theorem State.startRun_V (s : State) (alg : Alg) (dir : Dir) :
    (s.startRun alg dir).V = s.V := rfl
@[simp] theorem State.startRun_RK (s : State) (alg : Alg) (dir : Dir) :
    (s.startRun alg dir).RK = s.RK := rfl
@[simp] theorem State.startRun_SK (s : State) (alg : Alg) (dir : Dir) :
    (s.startRun alg dir).SK = s.SK := rfl
@[simp] theorem State.startRun_TRACE (s : State) (alg : Alg) (dir : Dir) :
    (s.startRun alg dir).TRACE = s.TRACE := rfl
@[simp] theorem State.startRun_OUT (s : State) (alg : Alg) (dir : Dir) :
    (s.startRun alg dir).OUT = s.OUT := rfl
@[simp] theorem State.startRun_turns (s : State) (alg : Alg) (dir : Dir) :
    (s.startRun alg dir).turns = s.turns := rfl
@[simp] theorem State.startRun_reads (s : State) (alg : Alg) (dir : Dir) :
    (s.startRun alg dir).reads = s.reads := rfl
@[simp] theorem State.startRun_draws (s : State) (alg : Alg) (dir : Dir) :
    (s.startRun alg dir).draws = s.draws := rfl

/-! ### appendRecord -/

@[simp] theorem State.appendRecord_phase (s : State) (r : StepRecord) :
    (s.appendRecord r).phase = s.phase := rfl
@[simp] theorem State.appendRecord_pc (s : State) (r : StepRecord) :
    (s.appendRecord r).pc = s.pc + 1 := rfl
@[simp] theorem State.appendRecord_ALG_L (s : State) (r : StepRecord) :
    (s.appendRecord r).ALG_L = s.ALG_L := rfl
@[simp] theorem State.appendRecord_DIR_L (s : State) (r : StepRecord) :
    (s.appendRecord r).DIR_L = s.DIR_L := rfl
@[simp] theorem State.appendRecord_TIDX (s : State) (r : StepRecord) :
    (s.appendRecord r).TIDX = s.TIDX := rfl
@[simp] theorem State.appendRecord_MSG (s : State) (r : StepRecord) :
    (s.appendRecord r).MSG = s.MSG := rfl
@[simp] theorem State.appendRecord_KEY (s : State) (r : StepRecord) :
    (s.appendRecord r).KEY = s.KEY := rfl
@[simp] theorem State.appendRecord_S (s : State) (r : StepRecord) :
    (s.appendRecord r).S = s.S := rfl
@[simp] theorem State.appendRecord_V (s : State) (r : StepRecord) :
    (s.appendRecord r).V = s.V := rfl
@[simp] theorem State.appendRecord_RK (s : State) (r : StepRecord) :
    (s.appendRecord r).RK = s.RK := rfl
@[simp] theorem State.appendRecord_SK (s : State) (r : StepRecord) :
    (s.appendRecord r).SK = s.SK := rfl
@[simp] theorem State.appendRecord_TRACE (s : State) (r : StepRecord) :
    (s.appendRecord r).TRACE = s.TRACE.setIfInBounds s.pc.toNat r := rfl
@[simp] theorem State.appendRecord_OUT (s : State) (r : StepRecord) :
    (s.appendRecord r).OUT = s.OUT := rfl
@[simp] theorem State.appendRecord_turns (s : State) (r : StepRecord) :
    (s.appendRecord r).turns = s.turns := rfl
@[simp] theorem State.appendRecord_reads (s : State) (r : StepRecord) :
    (s.appendRecord r).reads = s.reads := rfl
@[simp] theorem State.appendRecord_draws (s : State) (r : StepRecord) :
    (s.appendRecord r).draws = s.draws := rfl

/-! ### finishRun -/

@[simp] theorem State.finishRun_phase (s : State) (after : Block) :
    (s.finishRun after).phase = .done := rfl
@[simp] theorem State.finishRun_pc (s : State) (after : Block) :
    (s.finishRun after).pc = s.pc := rfl
@[simp] theorem State.finishRun_ALG_L (s : State) (after : Block) :
    (s.finishRun after).ALG_L = s.ALG_L := rfl
@[simp] theorem State.finishRun_DIR_L (s : State) (after : Block) :
    (s.finishRun after).DIR_L = s.DIR_L := rfl
@[simp] theorem State.finishRun_TIDX (s : State) (after : Block) :
    (s.finishRun after).TIDX = s.TIDX := rfl
@[simp] theorem State.finishRun_MSG (s : State) (after : Block) :
    (s.finishRun after).MSG = s.MSG := rfl
@[simp] theorem State.finishRun_KEY (s : State) (after : Block) :
    (s.finishRun after).KEY = s.KEY := rfl
@[simp] theorem State.finishRun_S (s : State) (after : Block) :
    (s.finishRun after).S = s.S := rfl
@[simp] theorem State.finishRun_V (s : State) (after : Block) :
    (s.finishRun after).V = s.V := rfl
@[simp] theorem State.finishRun_RK (s : State) (after : Block) :
    (s.finishRun after).RK = s.RK := rfl
@[simp] theorem State.finishRun_SK (s : State) (after : Block) :
    (s.finishRun after).SK = s.SK := rfl
@[simp] theorem State.finishRun_TRACE (s : State) (after : Block) :
    (s.finishRun after).TRACE = s.TRACE := rfl
@[simp] theorem State.finishRun_OUT (s : State) (after : Block) :
    (s.finishRun after).OUT = after := rfl
@[simp] theorem State.finishRun_turns (s : State) (after : Block) :
    (s.finishRun after).turns = s.turns := rfl
@[simp] theorem State.finishRun_reads (s : State) (after : Block) :
    (s.finishRun after).reads = s.reads := rfl
@[simp] theorem State.finishRun_draws (s : State) (after : Block) :
    (s.finishRun after).draws = s.draws := rfl

end Sys2Proof.Machine
end

