-- ==== Sys2Proof/Laws/Ops.lean ====
section
/-! SUPPORT. For each shared operation, once, everything it can do. -/

namespace Sys2Proof.Machine

/-! ### Recording a Step (R104) -/

/-- Every micro-op ends with `pc <- pc + 1` (R23). -/
@[simp] theorem State.recordStep_pc (s : State) (r : StepRecord) : (s.recordStep r).pc = s.pc + 1 := by
  unfold State.recordStep; split <;> simp

@[simp] theorem State.recordStep_TRACE (s : State) (r : StepRecord) :
    (s.recordStep r).TRACE = s.TRACE.setIfInBounds s.pc.toNat r := by
  unfold State.recordStep; split <;> simp

@[simp] theorem State.recordStep_ALG_L (s : State) (r : StepRecord) : (s.recordStep r).ALG_L = s.ALG_L := by
  unfold State.recordStep; split <;> simp

@[simp] theorem State.recordStep_DIR_L (s : State) (r : StepRecord) : (s.recordStep r).DIR_L = s.DIR_L := by
  unfold State.recordStep; split <;> simp

@[simp] theorem State.recordStep_TIDX (s : State) (r : StepRecord) : (s.recordStep r).TIDX = s.TIDX := by
  unfold State.recordStep; split <;> simp

@[simp] theorem State.recordStep_MSG (s : State) (r : StepRecord) : (s.recordStep r).MSG = s.MSG := by
  unfold State.recordStep; split <;> simp

@[simp] theorem State.recordStep_KEY (s : State) (r : StepRecord) : (s.recordStep r).KEY = s.KEY := by
  unfold State.recordStep; split <;> simp

@[simp] theorem State.recordStep_S (s : State) (r : StepRecord) : (s.recordStep r).S = s.S := by
  unfold State.recordStep; split <;> simp

@[simp] theorem State.recordStep_V (s : State) (r : StepRecord) : (s.recordStep r).V = s.V := by
  unfold State.recordStep; split <;> simp

@[simp] theorem State.recordStep_RK (s : State) (r : StepRecord) : (s.recordStep r).RK = s.RK := by
  unfold State.recordStep; split <;> simp

@[simp] theorem State.recordStep_SK (s : State) (r : StepRecord) : (s.recordStep r).SK = s.SK := by
  unfold State.recordStep; split <;> simp

@[simp] theorem State.recordStep_turns (s : State) (r : StepRecord) : (s.recordStep r).turns = s.turns := by
  unfold State.recordStep; split <;> simp

@[simp] theorem State.recordStep_reads (s : State) (r : StepRecord) : (s.recordStep r).reads = s.reads := by
  unfold State.recordStep; split <;> simp

@[simp] theorem State.recordStep_draws (s : State) (r : StepRecord) : (s.recordStep r).draws = s.draws := by
  unfold State.recordStep; split <;> simp

/-- The last micro-op of the run writes `OUT` and enters DONE (R33, R104). -/
theorem State.recordStep_last (s : State) (r : StepRecord) (h : (s.pc + 1).toNat = traceLength s.ALG_L) :
    (s.recordStep r).OUT = r.after ∧ (s.recordStep r).phase = .done := by
  rw [State.recordStep, if_pos (by simpa using h)]
  exact ⟨rfl, rfl⟩

/-- Any other micro-op leaves `OUT` and `phase` as they were. -/
theorem State.recordStep_not_last (s : State) (r : StepRecord) (h : (s.pc + 1).toNat ≠ traceLength s.ALG_L) :
    (s.recordStep r).OUT = s.OUT ∧ (s.recordStep r).phase = s.phase := by
  rw [State.recordStep, if_neg (by simpa using h)]
  exact ⟨rfl, rfl⟩

/-! ### Committing a micro-op, and START -/

theorem commit_of_wf (i : Instr) (s : State) (r : StepRecord) (h : i.wf = true) :
    commit i s r = .next (s.recordStep r) := by
  simp [commit, h]

theorem commit_of_not_wf (i : Instr) (s : State) (r : StepRecord) (h : i.wf = false) :
    commit i s r = .refused (.reservedWord (uopOf i)) := by
  simp [commit, h]

/-- A micro-op that goes on was legal and recorded its Step. -/
theorem commit_next {i : Instr} {s t : State} {r : StepRecord} (h : commit i s r = .next t) :
    i.wf = true ∧ t = s.recordStep r := by
  unfold commit at h
  split at h
  · exact ⟨‹_›, by simpa using h.symm⟩
  · cases h

/-- START starts a run or, in BUSY, does nothing (R241, R240). -/
theorem start_cases (alg : Alg) (dir : Dir) (s : State) :
    (s.phase = .busy ∧ start alg dir s = s) ∨ (s.phase ≠ .busy ∧ start alg dir s = s.startRun alg dir) := by
  by_cases h : s.phase = .busy
  · exact .inl ⟨h, if_pos h⟩
  · exact .inr ⟨h, if_neg h⟩

@[simp] theorem start_busy {alg : Alg} {dir : Dir} {s : State} (h : s.phase = .busy) : start alg dir s = s := if_pos h

@[simp] theorem start_not_busy {alg : Alg} {dir : Dir} {s : State} (h : s.phase ≠ .busy) :
    start alg dir s = s.startRun alg dir := if_neg h

/-! ### Host reads and stores, reset -/

/-- A read logs one byte, and counts a draw where the byte is unspecified (R68, R70). -/
theorem regRead_cases (off : Offset) (s : State) :
    (∃ b, regValue s off = some b ∧ regRead off s = s.logRead off b) ∨
    (regValue s off = none ∧ regRead off s = (s.logRead off (Config.freeByte s.draws)).countDraw) := by
  cases h : regValue s off with
  | some b => exact .inl ⟨b, rfl, by simp [regRead, h]⟩
  | none => exact .inr ⟨rfl, by simp [regRead, h]⟩

/-- A store writes one byte of `MSG` or `KEY`, or `TIDX`, or nothing (R240). -/
theorem regStore_cases (off : Offset) (b : Byte) (s : State) :
    (off.toNat = 0x003 ∧ regStore off b s = s.setTIDX b) ∨
    (0x010 ≤ off.toNat ∧ off.toNat ≤ 0x01F ∧ regStore off b s = s.setMSG (off.toNat - 0x010) b) ∨
    (0x020 ≤ off.toNat ∧ off.toNat ≤ 0x02F ∧ regStore off b s = s.setKEY (off.toNat - 0x020) b) ∨
    regStore off b s = s := by
  simp only [regStore]
  by_cases h1 : off.toNat = 0x003
  · exact .inl ⟨h1, by simp [h1]⟩
  · by_cases h2 : 0x010 ≤ off.toNat ∧ off.toNat ≤ 0x01F
    · exact .inr (.inl ⟨h2.1, h2.2, by simp [h1, h2]⟩)
    · by_cases h3 : 0x020 ≤ off.toNat ∧ off.toNat ≤ 0x02F
      · exact .inr (.inr (.inl ⟨h3.1, h3.2, by simp [h1, h2, h3]⟩))
      · exact .inr (.inr (.inr (by simp [h1, h2, h3])))

/-- What the reset line fixes (R40, R300). -/
theorem applyReset_stated (s : State) :
    (applyReset s).phase = .idle ∧ (applyReset s).pc = 0 ∧ (applyReset s).ALG_L = .aes ∧
    (applyReset s).DIR_L = .encrypt ∧ (applyReset s).TIDX = 0 ∧ (applyReset s).MSG = zeroBlock ∧
    (applyReset s).KEY = zeroBlock :=
  ⟨rfl, rfl, rfl, rfl, rfl, rfl, rfl⟩

@[simp] theorem applyReset_turns (s : State) : (applyReset s).turns = s.turns := rfl
@[simp] theorem applyReset_reads (s : State) : (applyReset s).reads = s.reads := rfl
@[simp] theorem applyReset_draws (s : State) : (applyReset s).draws = s.draws + 1 := rfl

end Sys2Proof.Machine
end

