-- ==== Sys2Proof/Laws/Exec.lean ====
section
/-! SUPPORT. What `exec` answers, one lemma per instruction, and the inversion lemma over all micro-ops. -/

namespace Sys2Proof.Machine

theorem exec_blk2st (dir : Dir) (s : State) :
    exec (.blk2st dir) s =
      .next ((s.setS (blockToState s.MSG)).recordStep (plainRecord (.blk2st dir) s.MSG s.MSG)) :=
  commit_of_wf (.blk2st dir) _ _ rfl

theorem exec_keyexp (dir : Dir) (s : State) :
    exec (.keyexp dir) s =
      .next ((s.setRK (roundKeys s.KEY)).recordStep
        (plainRecord (.keyexp dir) (stateToBlock s.S) (stateToBlock s.S))) :=
  commit_of_wf (.keyexp dir) _ _ rfl

/-- The state and record of an AES micro-op that applies `g` to `S`. -/
theorem aesMicroOp_of_wf (i : Instr) (g : AesState → AesState) (rk : Block) (s : State) (h : i.wf = true) :
    aesMicroOp i g rk s =
      .next ((s.setS (g s.S)).recordStep
        { plainRecord i (stateToBlock s.S) (stateToBlock (g s.S)) with aux_rk := rk }) :=
  commit_of_wf _ _ _ h

theorem exec_addrk (dir : Dir) (round : BitVec 5) (s : State) (h : roundIn 0 10 round = true) :
    exec (.addrk dir round) s =
      .next ((s.setS (addRoundKey s.S (readRK s (addrkKidx dir round)))).recordStep
        { plainRecord (.addrk dir round) (stateToBlock s.S)
            (stateToBlock (addRoundKey s.S (readRK s (addrkKidx dir round)))) with
          aux_rk := stateToBlock (readRK s (addrkKidx dir round)) }) :=
  commit_of_wf (.addrk dir round) _ _ h

theorem exec_subb (round : BitVec 5) (s : State) (h : roundIn 1 10 round = true) :
    exec (.subb round) s =
      .next ((s.setS (subBytes s.S)).recordStep
        (plainRecord (.subb round) (stateToBlock s.S) (stateToBlock (subBytes s.S)))) :=
  aesMicroOp_of_wf (.subb round) _ _ _ h

theorem exec_shrow (round : BitVec 5) (s : State) (h : roundIn 1 10 round = true) :
    exec (.shrow round) s =
      .next ((s.setS (shiftRows s.S)).recordStep
        (plainRecord (.shrow round) (stateToBlock s.S) (stateToBlock (shiftRows s.S)))) :=
  aesMicroOp_of_wf (.shrow round) _ _ _ h

theorem exec_mixc (round : BitVec 5) (s : State) (h : roundIn 1 9 round = true) :
    exec (.mixc round) s =
      .next ((s.setS (mixColumns s.S)).recordStep
        (plainRecord (.mixc round) (stateToBlock s.S) (stateToBlock (mixColumns s.S)))) :=
  aesMicroOp_of_wf (.mixc round) _ _ _ h

theorem exec_isubb (round : BitVec 5) (s : State) (h : roundIn 1 10 round = true) :
    exec (.isubb round) s =
      .next ((s.setS (invSubBytes s.S)).recordStep
        (plainRecord (.isubb round) (stateToBlock s.S) (stateToBlock (invSubBytes s.S)))) :=
  aesMicroOp_of_wf (.isubb round) _ _ _ h

theorem exec_ishrow (round : BitVec 5) (s : State) (h : roundIn 1 10 round = true) :
    exec (.ishrow round) s =
      .next ((s.setS (invShiftRows s.S)).recordStep
        (plainRecord (.ishrow round) (stateToBlock s.S) (stateToBlock (invShiftRows s.S)))) :=
  aesMicroOp_of_wf (.ishrow round) _ _ _ h

theorem exec_imixc (round : BitVec 5) (s : State) (h : roundIn 1 9 round = true) :
    exec (.imixc round) s =
      .next ((s.setS (invMixColumns s.S)).recordStep
        (plainRecord (.imixc round) (stateToBlock s.S) (stateToBlock (invMixColumns s.S)))) :=
  aesMicroOp_of_wf (.imixc round) _ _ _ h

theorem exec_dinput (dir : Dir) (s : State) :
    exec (.dinput dir) s =
      .next (((s.setV (bitsOf8 s.MSG)).setSK (desKeySchedule (bitsOf8 s.KEY))).recordStep
        (plainRecord (.dinput dir) (lowBytes s.MSG) (lowBytes s.MSG))) :=
  commit_of_wf (.dinput dir) _ _ rfl

theorem exec_dip (dir : Dir) (s : State) :
    exec (.dip dir) s =
      .next ((s.setV (initialPerm s.V)).recordStep
        (plainRecord (.dip dir) (desImage s.V) (desImage (initialPerm s.V)))) :=
  commit_of_wf (.dip dir) _ _ rfl

theorem exec_dround (dir : Dir) (round : BitVec 5) (s : State) (h : roundIn 1 16 round = true) :
    exec (.dround dir round) s =
      .next ((s.setV (desRound s.V (readSK s (droundKidx dir round)))).recordStep
        { plainRecord (.dround dir round) (desImage s.V)
            (desImage (desRound s.V (readSK s (droundKidx dir round)))) with
          aux_sk := readSK s (droundKidx dir round)
          aux_e := (feistel (rightHalf s.V) (readSK s (droundKidx dir round))).e
          aux_x := (feistel (rightHalf s.V) (readSK s (droundKidx dir round))).x
          aux_sb := (feistel (rightHalf s.V) (readSK s (droundKidx dir round))).sb
          aux_f := (feistel (rightHalf s.V) (readSK s (droundKidx dir round))).fo }) :=
  commit_of_wf (.dround dir round) _ _ h

theorem exec_dswap (dir : Dir) (s : State) :
    exec (.dswap dir) s =
      .next ((s.setV (swapHalves s.V)).recordStep
        (plainRecord (.dswap dir) (desImage s.V) (desImage (swapHalves s.V)))) :=
  commit_of_wf (.dswap dir) _ _ rfl

theorem exec_dfp (dir : Dir) (s : State) :
    exec (.dfp dir) s =
      .next ((s.setV (finalPerm s.V)).recordStep
        (plainRecord (.dfp dir) (desImage s.V) (desImage (finalPerm s.V)))) :=
  commit_of_wf (.dfp dir) _ _ rfl

/-- The algorithm and direction a command names; nothing for a micro-op. -/
def commandOf : Instr → Option (Alg × Dir)
  | .startAesEnc _ => some (.aes, .encrypt)
  | .startDesEnc _ => some (.des, .encrypt)
  | .startAesDec _ => some (.aes, .decrypt)
  | .startDesDec _ => some (.des, .decrypt)
  | .blk2st _ => none
  | .keyexp _ => none
  | .addrk _ _ => none
  | .subb _ => none
  | .shrow _ => none
  | .mixc _ => none
  | .isubb _ => none
  | .ishrow _ => none
  | .imixc _ => none
  | .dinput _ => none
  | .dip _ => none
  | .dround _ _ => none
  | .dswap _ => none
  | .dfp _ => none

/-- A command is START with its algorithm and direction; bits 7:3 play no part (R241, R94). -/
theorem exec_command {i : Instr} {a : Alg} {d : Dir} (h : commandOf i = some (a, d)) (s : State) :
    exec i s = .next (start a d s) := by
  cases i <;> simp_all [commandOf] <;> obtain ⟨rfl, rfl⟩ := h <;> rfl

/-- The fields no micro-op's own effect writes: all but `S`, `V`, `RK`, `SK`. -/
structure SameButWorking (s t : State) : Prop where
  phase : t.phase = s.phase
  pc : t.pc = s.pc
  ALG_L : t.ALG_L = s.ALG_L
  DIR_L : t.DIR_L = s.DIR_L
  TIDX : t.TIDX = s.TIDX
  MSG : t.MSG = s.MSG
  KEY : t.KEY = s.KEY
  TRACE : t.TRACE = s.TRACE
  OUT : t.OUT = s.OUT
  turns : t.turns = s.turns
  reads : t.reads = s.reads
  draws : t.draws = s.draws

/-- Everything a micro-op can do: it was legal, it changed only `S`, `V`, `RK`, `SK`, and it recorded a Step of its own
word (R104). -/
theorem exec_micro_next {i : Instr} {s t : State} (hm : i.isMicro = true) (h : exec i s = .next t) :
    i.wf = true ∧ ∃ s' r, t = s'.recordStep r ∧ SameButWorking s s' ∧ r.uop = uopOf i := by
  cases i <;> first
    | exact Bool.noConfusion hm
    | (simp only [exec, execBlk2st, execKeyexp, execAddrk, execSubb, execShrow, execMixc, execIsubb, execIshrow,
         execImixc, execDinput, execDip, execDround, execDswap, execDfp, aesMicroOp, desMicroOp] at h
       obtain ⟨hw, ht⟩ := commit_next h
       exact ⟨hw, _, _, ht, ⟨rfl, rfl, rfl, rfl, rfl, rfl, rfl, rfl, rfl, rfl, rfl, rfl⟩, rfl⟩)

/-- A legal micro-op always goes on (R280). -/
theorem exec_micro_of_wf {i : Instr} (s : State) (hw : i.wf = true) (hm : i.isMicro = true) :
    ∃ t, exec i s = .next t := by
  cases i with
  | blk2st d => exact ⟨_, exec_blk2st d s⟩
  | keyexp d => exact ⟨_, exec_keyexp d s⟩
  | addrk d r => exact ⟨_, exec_addrk d r s hw⟩
  | subb r => exact ⟨_, exec_subb r s hw⟩
  | shrow r => exact ⟨_, exec_shrow r s hw⟩
  | mixc r => exact ⟨_, exec_mixc r s hw⟩
  | isubb r => exact ⟨_, exec_isubb r s hw⟩
  | ishrow r => exact ⟨_, exec_ishrow r s hw⟩
  | imixc r => exact ⟨_, exec_imixc r s hw⟩
  | dinput d => exact ⟨_, exec_dinput d s⟩
  | dip d => exact ⟨_, exec_dip d s⟩
  | dround d r => exact ⟨_, exec_dround d r s hw⟩
  | dswap d => exact ⟨_, exec_dswap d s⟩
  | dfp d => exact ⟨_, exec_dfp d s⟩
  | startAesEnc g => exact Bool.noConfusion hm
  | startDesEnc g => exact Bool.noConfusion hm
  | startAesDec g => exact Bool.noConfusion hm
  | startDesDec g => exact Bool.noConfusion hm

/-- Everything `exec` can do when it goes on: a legal micro-op recorded its Step, or a START was accepted or
ignored. -/
theorem exec_next {i : Instr} {s t : State} (h : exec i s = .next t) :
    (i.isMicro = true ∧ i.wf = true ∧ ∃ s' r, t = s'.recordStep r ∧ SameButWorking s s' ∧ r.uop = uopOf i) ∨
    (∃ a d, commandOf i = some (a, d) ∧
      ((s.phase = .busy ∧ t = s) ∨ (s.phase ≠ .busy ∧ t = s.startRun a d))) := by
  cases hm : i.isMicro with
  | true =>
    obtain ⟨hw, hr⟩ := exec_micro_next hm h
    exact .inl ⟨rfl, hw, hr⟩
  | false =>
    right
    cases i <;> simp only [Instr.isMicro, Bool.true_eq_false] at hm <;>
      exact ⟨_, _, rfl, by injection h with h; subst h; exact start_cases _ _ _⟩

end Sys2Proof.Machine
end

