-- ==== Sys2Proof/Laws/Step.lean ====
section
/-! SUPPORT. What one step can do, once: the inversion lemmas of the agents' turns and of `step`. -/

namespace Sys2Proof.Machine

theorem step_nil {s : State} (h : s.turns = []) : step s = sequencerTurn s := by
  simp [step, h]

theorem step_cons {s : State} {t : Turn} {rest : List Turn} (h : s.turns = t :: rest) :
    step s = takeTurn t (s.withTurns rest) := by
  simp [step, h]

/-- The sequencer outside BUSY does nothing (R302, R22). -/
theorem sequencerTurn_not_busy {s : State} (h : s.phase ≠ .busy) : sequencerTurn s = .next s := by
  simp [sequencerTurn, h]

/-- The sequencer in BUSY runs the micro-op its fetched word decodes to (R104). -/
theorem sequencerTurn_busy {s : State} {w : UWord} {i : Instr} (hb : s.phase = .busy) (hf : fetch s = some w)
    (hd : decodeU w = .ok i) : sequencerTurn s = exec i s := by
  simp [sequencerTurn, hb, hf, hd]

/-- A byte that decodes to a command decodes to the START of its fields. -/
theorem decodeC_command {b : Byte} {i : Instr} (h : decodeC b = .ok i) :
    ∃ a d, commandOf i = some (a, d) ∧ commandFields b = some (a, d) := by
  unfold decodeC at h
  split at h <;> first
    | (injection h with h; subst h; exact ⟨_, _, rfl, ‹_›⟩)
    | cases h

/-- The host's write to `CTRL` of a byte that decodes to a command runs it (R240). -/
theorem regWrite_command {s : State} {b : Byte} {i : Instr} (hd : decodeC b = .ok i) :
    exec i s = .next (regWrite 0#9 b s) := by
  obtain ⟨a, d, hc, hf⟩ := decodeC_command hd
  by_cases hb : s.phase = .busy <;> simp [exec_command hc, regWrite, hb, hf]

/-- Everything a sequencer turn that goes on can do. -/
theorem sequencerTurn_next {s t : State} (h : sequencerTurn s = .next t) :
    ((s.phase ≠ .busy ∨ fetch s = none) ∧ t = s) ∨
    (s.phase = .busy ∧ ∃ w i, fetch s = some w ∧ decodeU w = .ok i ∧ exec i s = .next t) := by
  unfold sequencerTurn at h
  split at h
  · rename_i hb
    cases hf : fetch s with
    | none => exact .inl ⟨.inr rfl, by simpa [hf] using h.symm⟩
    | some w =>
      cases hd : decodeU w with
      | error e => simp [hf, hd] at h
      | ok i => exact .inr ⟨hb, w, i, rfl, hd, by simpa [hf, hd] using h⟩
  · exact .inl ⟨.inl ‹_›, by simpa using h.symm⟩

/-- Everything a host write can do: ignored (in BUSY, or a byte that is no command), a START accepted, or a plain
store (R240). -/
theorem regWrite_cases (off : Offset) (b : Byte) (s : State) :
    (s.phase = .busy ∧ regWrite off b s = s) ∨
    (s.phase ≠ .busy ∧ off = 0#9 ∧
      ((∃ a d, commandFields b = some (a, d) ∧ regWrite off b s = s.startRun a d) ∨
       (commandFields b = none ∧ regWrite off b s = s))) ∨
    (s.phase ≠ .busy ∧ off ≠ 0#9 ∧ regWrite off b s = regStore off b s) := by
  by_cases hb : s.phase = .busy
  · exact .inl ⟨hb, by simp [regWrite, hb]⟩
  · by_cases ho : off = 0#9
    · refine .inr (.inl ⟨hb, ho, ?_⟩)
      cases hc : commandFields b with
      | none => exact .inr ⟨rfl, by simp [regWrite, hb, ho, hc]⟩
      | some ad => exact .inl ⟨ad.1, ad.2, rfl, by simp [regWrite, hb, ho, hc]⟩
    · exact .inr (.inr ⟨hb, ho, by simp [regWrite, hb, ho]⟩)

/-- Everything a step that goes on can do: whose turn it was, and what it did. -/
theorem step_next {s t : State} (h : step s = .next t) :
    (s.turns = [] ∧ sequencerTurn s = .next t) ∨
    (∃ rest, s.turns = .sequencer :: rest ∧ sequencerTurn (s.withTurns rest) = .next t) ∨
    (∃ off rest, s.turns = .read off :: rest ∧ t = regRead off (s.withTurns rest)) ∨
    (∃ off b rest, s.turns = .write off b :: rest ∧ t = regWrite off b (s.withTurns rest)) ∨
    (∃ rest, s.turns = .reset :: rest ∧ t = applyReset (s.withTurns rest)) := by
  cases ht : s.turns with
  | nil => exact .inl ⟨rfl, by rw [← step_nil ht]; exact h⟩
  | cons x rest =>
    rw [step_cons ht] at h
    cases x with
    | sequencer => exact .inr (.inl ⟨rest, rfl, h⟩)
    | read off => exact .inr (.inr (.inl ⟨off, rest, rfl, by simpa [takeTurn] using h.symm⟩))
    | write off b => exact .inr (.inr (.inr (.inl ⟨off, b, rest, rfl, by simpa [takeTurn] using h.symm⟩)))
    | reset => exact .inr (.inr (.inr (.inr ⟨rest, rfl, by simpa [takeTurn] using h.symm⟩)))

/-- Running `n + 1` steps is one step, then `n`. -/
theorem run_succ (n : Nat) (s t : State) (h : step s = .next t) :
    Sys2Proof.core.run (n + 1) s = Sys2Proof.core.run n t := by
  have h' : Sys2Proof.core.step s = .next t := h
  simp [Host.Core.run, h']

end Sys2Proof.Machine
end

