-- ==== Sys2Proof/Laws/HostProgram.lean ====
section
/-! SUPPORT. What the parts of the host program do, once each: running a list of turns, reading a list of offsets, and
the record behind the bytes of the trace window. -/

namespace Sys2Proof.Machine

/-! ### Running turns -/

@[simp] theorem runTurns_nil (s : State) : runTurns [] s = some s := rfl

/-- A turn after which the machine goes on, then the others. -/
theorem runTurns_cons {t : Turn} {ts : List Turn} {s s' : State} (h : step (s.withTurns [t]) = .next s') :
    runTurns (t :: ts) s = runTurns ts s' := by
  simp [runTurns, h]

theorem runTurns_append (ts us : List Turn) (s : State) :
    runTurns (ts ++ us) s = (runTurns ts s).bind (runTurns us) := by
  induction ts generalizing s with
  | nil => rfl
  | cons t ts ih =>
    rw [List.cons_append]
    cases h : step (s.withTurns [t]) with
    | next s' => rw [runTurns_cons h, runTurns_cons h, ih]
    | fault r => cases r
    | refused r => simp [runTurns, h]

/-- One turn of the host that reads. -/
theorem step_read (off : Offset) (s : State) : step (s.withTurns [.read off]) = .next (regRead off (s.withTurns [])) :=
  rfl

/-- One turn of the host that writes. -/
theorem step_write (off : Offset) (b : Byte) (s : State) :
    step (s.withTurns [.write off b]) = .next (regWrite off b (s.withTurns [])) := rfl

/-- What a read returns depends on neither the turns to come nor the bytes read before. -/
@[simp] theorem regValue_withTurns (s : State) (ts : List Turn) (off : Offset) :
    regValue (s.withTurns ts) off = regValue s off := rfl

@[simp] theorem regValue_logRead (s : State) (o off : Offset) (b : Byte) :
    regValue (s.logRead o b) off = regValue s off := rfl

/-- Reading a list of offsets whose values the spec defines: the host gets those values, in order, and nothing but its
log of reads and the turns changes (R68). -/
theorem runTurns_reads (f : Offset → Byte) (offs : List Offset) (s : State)
    (h : ∀ o ∈ offs, regValue s o = some (f o)) :
    ∃ t, runTurns (offs.map .read) s = some t ∧ t = { s with turns := t.turns, reads := t.reads } ∧
      t.reads = (offs.map fun o => ⟨o, f o⟩).reverse ++ s.reads := by
  induction offs generalizing s with
  | nil => exact ⟨s, rfl, rfl, rfl⟩
  | cons o os ih =>
    have h1 : regRead o (s.withTurns []) = (s.withTurns []).logRead o (f o) := by
      simp [regRead, h o (List.mem_cons_self ..)]
    obtain ⟨t, ht, hs, hr⟩ := ih ((s.withTurns []).logRead o (f o)) fun o' ho' => by
      simpa using h o' (List.mem_cons_of_mem _ ho')
    refine ⟨t, ?_, hs, ?_⟩
    · rw [List.map_cons, runTurns_cons (step_read o s), h1]
      exact ht
    · rw [hr]
      simp [State.logRead, State.withTurns]

/-- Then the last bytes read are those values. -/
theorem lastReads_of_reads (f : Offset → Byte) (offs : List Offset) (t : State) (rest : List HostRead)
    (h : t.reads = (offs.map fun o => ⟨o, f o⟩).reverse ++ rest) : lastReads t offs.length = offs.map f := by
  rw [lastReads, h, List.take_append_of_le_length (by simp), List.take_of_length_le (by simp)]
  simp

/-! ### The record behind the window -/

theorem getLsbD_packedByte {n : Nat} (V : BitVec n) (i j : Nat) :
    (packedByte V i).getLsbD j = (decide (j < 8) && V.getLsbD (n - 8 * (i + 1) + j)) := by
  simp [packedByte]

/-- Sixteen bytes of the window that are a Block's. -/
theorem windowBlock_eq (w : List Byte) (k : Nat) (B : Block) (h : ∀ i : Fin 16, w.getD (k + i.val) 0#8 = B[i]) :
    windowBlock w k = B := by
  apply block_ext
  intro i
  simpa [windowBlock] using h i

/-- `m` bytes of the window that are those a vector of `8 m` bits packs to. -/
theorem windowBits_eq {n : Nat} (w : List Byte) (k m : Nat) (V : BitVec n) (hn : n = 8 * m)
    (h : ∀ i, i < m → w.getD (k + i) 0#8 = packedByte V i) : windowBits n w k = V := by
  apply bits_ext
  intro p h1 hp
  rw [windowBits, bitAt_ofPositions n _ p h1 hp, h _ (by omega), BitVec.getMsbD_eq_getLsbD, getLsbD_packedByte, bitAt,
    BitVec.getMsbD_eq_getLsbD]
  have h3 : p - 1 < n := by omega
  have h4 : n - 8 * ((p - 1) / 8 + 1) + (8 - 1 - (p - 1) % 8) = n - 1 - (p - 1) := by omega
  have h5 : (p - 1) % 8 < 8 := by omega
  have h6 : 8 - 1 - (p - 1) % 8 < 8 := by omega
  rw [h4]
  simp only [h3, h5, h6, decide_true, Bool.true_and]

/-- The bytes of the trace window in order. -/
def windowBytes (r : StepRecord) : List Byte := (List.range 0x60).map fun j => windowByte r (0x40 + j)

theorem getD_windowBytes (r : StepRecord) (j : Nat) (h : j < 0x60) :
    (windowBytes r).getD j 0#8 = windowByte r (0x40 + j) := by
  simp [windowBytes, List.getD_eq_getElem?_getD, h]

/-- The host gets back the record that the window shows, whole (R72, R243). -/
theorem recordOfWindow_windowBytes (r : StepRecord) : recordOfWindow (windowBytes r) = r := by
  have hb : ∀ (k : Nat) (B : Block), k + 16 ≤ 0x60 → (∀ i : Fin 16, windowByte r (0x40 + (k + i.val)) = B[i]) →
      windowBlock (windowBytes r) k = B := fun k B hk h => windowBlock_eq _ k B fun i => by
    rw [getD_windowBytes r _ (by omega)]; exact h i
  have hv : ∀ (n k m : Nat) (V : BitVec n), n = 8 * m → k + m ≤ 0x60 →
      (∀ i, i < m → windowByte r (0x40 + (k + i)) = packedByte V i) → windowBits n (windowBytes r) k = V :=
    fun n k m V hn hk h => windowBits_eq _ k m V hn fun i hi => by
      rw [getD_windowBytes r _ (by omega)]; exact h i hi
  have huop : (windowBytes r).getD 0x01 0#8 ++ (windowBytes r).getD 0x00 0#8 = r.uop := by
    rw [getD_windowBytes r _ (by omega), getD_windowBytes r _ (by omega)]
    apply BitVec.eq_of_getLsbD_eq
    intro i hi
    refine (BitVec.getLsbD_append ..).trans ?_
    by_cases h : i < 8
    · simp [windowByte, h]
    · have h7 : i - 8 < 8 := by omega
      have h9 : 8 + (i - 8) = i := by omega
      simp [windowByte, h, h7, h9]
  simp only [recordOfWindow, huop,
    hb 0x10 r.before (by omega) (by intro i; fin_cases i <;> rfl),
    hb 0x20 r.after (by omega) (by intro i; fin_cases i <;> rfl),
    hb 0x30 r.aux_rk (by omega) (by intro i; fin_cases i <;> rfl),
    hv 48 0x08 6 r.aux_sk rfl (by omega) (by intro i hi; interval_cases i <;> rfl),
    hv 48 0x40 6 r.aux_e rfl (by omega) (by intro i hi; interval_cases i <;> rfl),
    hv 48 0x48 6 r.aux_x rfl (by omega) (by intro i hi; interval_cases i <;> rfl),
    hv 32 0x50 4 r.aux_sb rfl (by omega) (by intro i hi; interval_cases i <;> rfl),
    hv 32 0x54 4 r.aux_f rfl (by omega) (by intro i hi; interval_cases i <;> rfl)]

end Sys2Proof.Machine
end

