-- ==== Sys2Proof/Laws/PerInstr.lean ====
section
/-! SUPPORT. Statements made for every instruction as syntax, one lemma a constructor. -/

namespace Sys2Proof.Laws

/-- Bits 13:12 and 7:5 of a packed micro-op word are zero (R90). -/
theorem packU_zero_fields (alg : Alg) (dir : Dir) (op : BitVec 4) (round : BitVec 5) :
    (packU alg dir op round).extractLsb' 12 2 = 0#2 ∧ (packU alg dir op round).extractLsb' 5 3 = 0#3 := by
  revert op round
  cases alg <;> cases dir <;> decide +kernel

/-- Bit 0 of a packed command byte is set (R94). -/
theorem packC_start_bit (alg : Alg) (dir : Dir) (ignored : BitVec 5) : (packC alg dir ignored).getLsbD 0 = true := by
  revert ignored
  cases alg <;> cases dir <;> decide +kernel

namespace EncodedForm

/-- A micro-op encodes to a word whose must-be-zero fields are zero, a command to a byte with bit 0 set (R90, R94). -/
def Statement (i : Instr) : Prop :=
  match encode i with
  | .u w => i.isMicro = true ∧ w.extractLsb' 12 2 = 0#2 ∧ w.extractLsb' 5 3 = 0#3
  | .c b => i.isMicro = false ∧ b.getLsbD 0 = true

theorem blk2st (dir : Dir) : Statement (.blk2st dir) := ⟨rfl, packU_zero_fields _ _ _ _⟩
theorem keyexp (dir : Dir) : Statement (.keyexp dir) := ⟨rfl, packU_zero_fields _ _ _ _⟩
theorem addrk (dir : Dir) (round : BitVec 5) : Statement (.addrk dir round) := ⟨rfl, packU_zero_fields _ _ _ _⟩
theorem subb (round : BitVec 5) : Statement (.subb round) := ⟨rfl, packU_zero_fields _ _ _ _⟩
theorem shrow (round : BitVec 5) : Statement (.shrow round) := ⟨rfl, packU_zero_fields _ _ _ _⟩
theorem mixc (round : BitVec 5) : Statement (.mixc round) := ⟨rfl, packU_zero_fields _ _ _ _⟩
theorem isubb (round : BitVec 5) : Statement (.isubb round) := ⟨rfl, packU_zero_fields _ _ _ _⟩
theorem ishrow (round : BitVec 5) : Statement (.ishrow round) := ⟨rfl, packU_zero_fields _ _ _ _⟩
theorem imixc (round : BitVec 5) : Statement (.imixc round) := ⟨rfl, packU_zero_fields _ _ _ _⟩
theorem dinput (dir : Dir) : Statement (.dinput dir) := ⟨rfl, packU_zero_fields _ _ _ _⟩
theorem dip (dir : Dir) : Statement (.dip dir) := ⟨rfl, packU_zero_fields _ _ _ _⟩
theorem dround (dir : Dir) (round : BitVec 5) : Statement (.dround dir round) := ⟨rfl, packU_zero_fields _ _ _ _⟩
theorem dswap (dir : Dir) : Statement (.dswap dir) := ⟨rfl, packU_zero_fields _ _ _ _⟩
theorem dfp (dir : Dir) : Statement (.dfp dir) := ⟨rfl, packU_zero_fields _ _ _ _⟩
theorem startAesEnc (ignored : BitVec 5) : Statement (.startAesEnc ignored) := ⟨rfl, packC_start_bit _ _ ignored⟩
theorem startDesEnc (ignored : BitVec 5) : Statement (.startDesEnc ignored) := ⟨rfl, packC_start_bit _ _ ignored⟩
theorem startAesDec (ignored : BitVec 5) : Statement (.startAesDec ignored) := ⟨rfl, packC_start_bit _ _ ignored⟩
theorem startDesDec (ignored : BitVec 5) : Statement (.startDesDec ignored) := ⟨rfl, packC_start_bit _ _ ignored⟩

end EncodedForm

end Sys2Proof.Laws
end

