-- ==== Sys2Proof/Laws/Rom.lean ====
section
/-! SUPPORT. What the four micro-programs hold (30_encoding.md R100 to R103): their lengths, that every word decodes to
a legal micro-op of the program's algorithm, and where the working state and the key file are written. -/

namespace Sys2Proof.Machine

/-- The algorithm a micro-op belongs to; nothing for a command. -/
def algOfInstr : Instr → Option Alg
  | .blk2st _ => some .aes
  | .keyexp _ => some .aes
  | .addrk _ _ => some .aes
  | .subb _ => some .aes
  | .shrow _ => some .aes
  | .mixc _ => some .aes
  | .isubb _ => some .aes
  | .ishrow _ => some .aes
  | .imixc _ => some .aes
  | .dinput _ => some .des
  | .dip _ => some .des
  | .dround _ _ => some .des
  | .dswap _ => some .des
  | .dfp _ => some .des
  | .startAesEnc _ => none
  | .startDesEnc _ => none
  | .startAesDec _ => none
  | .startDesDec _ => none

/-- The two micro-ops that load the working state from `MSG`. -/
def loadsMessage : Instr → Bool
  | .blk2st _ => true
  | .dinput _ => true
  | .keyexp _ => false
  | .addrk _ _ => false
  | .subb _ => false
  | .shrow _ => false
  | .mixc _ => false
  | .isubb _ => false
  | .ishrow _ => false
  | .imixc _ => false
  | .dip _ => false
  | .dround _ _ => false
  | .dswap _ => false
  | .dfp _ => false
  | .startAesEnc _ => false
  | .startDesEnc _ => false
  | .startAesDec _ => false
  | .startDesDec _ => false

/-- The two micro-ops that write the key file. -/
def writesKeyFile : Instr → Bool
  | .keyexp _ => true
  | .dinput _ => true
  | .blk2st _ => false
  | .addrk _ _ => false
  | .subb _ => false
  | .shrow _ => false
  | .mixc _ => false
  | .isubb _ => false
  | .ishrow _ => false
  | .imixc _ => false
  | .dip _ => false
  | .dround _ _ => false
  | .dswap _ => false
  | .dfp _ => false
  | .startAesEnc _ => false
  | .startDesEnc _ => false
  | .startAesDec _ => false
  | .startDesDec _ => false

/-- Where the micro-program of an algorithm writes the key file. -/
def keyFileIndex : Alg → Nat
  | .aes => 1
  | .des => 0

theorem length_rom (a : Alg) (d : Dir) : (rom a d).length = traceLength a := by
  cases a <;> cases d <;> decide

theorem traceLength_le (a : Alg) : traceLength a ≤ 42 := by cases a <;> decide

theorem traceLength_pos (a : Alg) : 0 < traceLength a := by cases a <;> decide

/-- What is checked of the word at index `j` of a micro-program. -/
def romWordOk (a : Alg) (j : Nat) (w : UWord) : Bool :=
  match decodeU w with
  | .ok i => i.wf && i.isMicro && decide (algOfInstr i = some a) && (loadsMessage i == decide (j = 0)) &&
      (writesKeyFile i == decide (j = keyFileIndex a)) && decide (uopOf i = w)
  | .error _ => false

theorem romWordOk_all (a : Alg) (d : Dir) :
    ((rom a d).zipIdx.all fun wj => romWordOk a wj.2 wj.1) = true := by
  cases a <;> cases d <;> decide +kernel

/-- The word at index `j` decodes to a legal micro-op of the program's algorithm that encodes back to the word; it loads
the message exactly at index 0 and writes the key file exactly at its index. -/
theorem rom_word {a : Alg} {d : Dir} {j : Nat} {w : UWord} (h : (rom a d)[j]? = some w) :
    ∃ i, decodeU w = .ok i ∧ i.wf = true ∧ i.isMicro = true ∧ algOfInstr i = some a ∧
      (loadsMessage i = true ↔ j = 0) ∧ (writesKeyFile i = true ↔ j = keyFileIndex a) ∧ uopOf i = w := by
  have hmem : (w, j) ∈ (rom a d).zipIdx := List.mem_zipIdx_iff_getElem?.2 h
  have hok := List.all_eq_true.1 (romWordOk_all a d) _ hmem
  simp only [romWordOk] at hok
  cases hd : decodeU w with
  | error e => simp [hd] at hok
  | ok i =>
    simp only [hd, Bool.and_eq_true, decide_eq_true_eq, beq_iff_eq] at hok
    obtain ⟨⟨⟨⟨⟨hw, hm⟩, ha⟩, hl⟩, hk⟩, hu⟩ := hok
    exact ⟨i, rfl, hw, hm, ha, by rw [hl]; simp, by rw [hk]; simp, hu⟩

/-- In BUSY within the program, the fetch gives a word (R104: "pc < N always holds here"). -/
theorem fetch_of_lt {s : State} (h : s.pc.toNat < traceLength s.ALG_L) : ∃ w, fetch s = some w := by
  refine ⟨(rom s.ALG_L s.DIR_L)[s.pc.toNat]'(by rw [length_rom]; exact h), ?_⟩
  simp [fetch]

end Sys2Proof.Machine
end

