-- ==== Sys2Proof/Tests/Slice0.lean ====
section
/-! SUPPORT. The model's own tests: expected values are the spec's (95_test_vectors.md and the examples in the rules),
never the model's. Then, for every statement that has hypotheses, a witness that meets them. -/

namespace Sys2Proof.Tests

open Sys2Proof Sys2Proof.Machine Sys2Proof.Claim

/-! ## Well-formedness: one ill-formed term for each check (R95) -/

theorem test_wf_addrk_11 : (Instr.addrk .encrypt 11).wf = false := by decide
theorem test_wf_subb_0 : (Instr.subb 0).wf = false := by decide
theorem test_wf_shrow_11 : (Instr.shrow 11).wf = false := by decide
theorem test_wf_mixc_10 : (Instr.mixc 10).wf = false := by decide
theorem test_wf_isubb_0 : (Instr.isubb 0).wf = false := by decide
theorem test_wf_ishrow_11 : (Instr.ishrow 11).wf = false := by decide
theorem test_wf_imixc_10 : (Instr.imixc 10).wf = false := by decide
theorem test_wf_dround_0 : (Instr.dround .encrypt 0).wf = false := by decide
theorem test_wf_dround_17 : (Instr.dround .decrypt 17).wf = false := by decide
theorem test_wf_bounds : (Instr.addrk .decrypt 0).wf = true ∧ (Instr.addrk .encrypt 10).wf = true ∧
    (Instr.subb 1).wf = true ∧ (Instr.shrow 10).wf = true ∧ (Instr.mixc 9).wf = true ∧ (Instr.isubb 10).wf = true ∧
    (Instr.ishrow 1).wf = true ∧ (Instr.imixc 1).wf = true ∧ (Instr.dround .encrypt 1).wf = true ∧
    (Instr.dround .decrypt 16).wf = true := by decide

/-! ## Decoding: one word for each constructor, bit by bit as `ad00oooo000rrrrr` and `-----da1` (R90, R94, 95 section 6) -/

theorem test_decode_blk2st : decodeU 0b0000000000000000 = .ok (.blk2st .encrypt) := by decide
theorem test_decode_keyexp : decodeU 0b0100000100000000 = .ok (.keyexp .decrypt) := by decide
theorem test_decode_addrk : decodeU 0b0100001000000011 = .ok (.addrk .decrypt 3) := by decide
theorem test_decode_subb : decodeU 0b0000001100000001 = .ok (.subb 1) := by decide
theorem test_decode_shrow : decodeU 0b0000010000001010 = .ok (.shrow 10) := by decide
theorem test_decode_mixc : decodeU 0b0000010100001001 = .ok (.mixc 9) := by decide
theorem test_decode_isubb : decodeU 0b0100011000000001 = .ok (.isubb 1) := by decide
theorem test_decode_ishrow : decodeU 0b0100011100001010 = .ok (.ishrow 10) := by decide
theorem test_decode_imixc : decodeU 0b0100100000001001 = .ok (.imixc 9) := by decide
theorem test_decode_dinput : decodeU 0b1000000000000000 = .ok (.dinput .encrypt) := by decide
theorem test_decode_dip : decodeU 0b1100000100000000 = .ok (.dip .decrypt) := by decide
theorem test_decode_dround : decodeU 0b1100001000010000 = .ok (.dround .decrypt 16) := by decide
theorem test_decode_dswap : decodeU 0b1000001100000000 = .ok (.dswap .encrypt) := by decide
theorem test_decode_dfp : decodeU 0b1100010000000000 = .ok (.dfp .decrypt) := by decide
theorem test_decode_startAesEnc : decodeC 0b11111001 = .ok (.startAesEnc 0b11111) := by decide
theorem test_decode_startDesEnc : decodeC 0b00000011 = .ok (.startDesEnc 0) := by decide
theorem test_decode_startAesDec : decodeC 0b00000101 = .ok (.startAesDec 0) := by decide
theorem test_decode_startDesDec : decodeC 0b11111111 = .ok (.startDesDec 0b11111) := by decide

/-- The reasons of 95 section 6 for a reserved word or a byte that is no command. -/
theorem test_decode_reserved : decodeU 0x050A = .error .roundOutOfRange ∧ decodeU 0x4300 = .error .dirNotAllowed ∧
    decodeU 0x0901 = .error .reservedOp ∧ decodeU 0x2201 = .error .mustBeZero ∧ decodeU 0x0281 = .error .mustBeZero ∧
    decodeU 0x8211 = .error .roundOutOfRange ∧ decodeC 0xFE = .error .notACommand := by decide

theorem test_decodeTableWord : decodeTableWord 16 0x4203 = some (.addrk .decrypt 3) ∧
    decodeTableWord 8 0x05 = some (.startAesDec 0) ∧ decodeTableWord 16 0x0300 = none := by decide

/-! ## One step from reset with an instruction placed -/

/-- What a test reads of an outcome. -/
def after {α : Type} (o : Host.Outcome State Fault Refusal) (f : State → α) : Option α :=
  match o with
  | .next t => some (f t)
  | .fault _ => none
  | .refused _ => none

theorem test_place_command :
    after (step (State.reset.withFetchWord 8 0x05)) (fun t => (t.phase, t.ALG_L, t.DIR_L, t.pc)) =
      some (.busy, .aes, .decrypt, 0) := by decide

theorem test_place_micro_op :
    after (step (State.reset.withFetchWord 16 0x4601)) (fun t => (t.TRACE[4].uop, t.pc, t.phase)) =
      some (0x4601, 5, .busy) := by decide +kernel

/-! ## Effects, with the examples of the rules -/

/-- A BUSY state in which `S` shows the Block `b`. -/
def withS (b : Nat) : State := { State.reset with phase := .busy, S := blockToState (hexBlock b) }

/-- A BUSY state of a DES run in which `V` is `v`. -/
def withV (v : BitVec 64) : State := { State.reset with phase := .busy, ALG_L := .des, V := v }

/-- A BUSY state with the given inputs. -/
def withInputs (msg key : Nat) : State := { State.reset with phase := .busy, MSG := hexBlock msg, KEY := hexBlock key }

/-- R132. -/
theorem test_blk2st :
    after (exec (.blk2st .encrypt) (withInputs 0x48454C4C4F2041455320574F524C4421 0))
      (fun t => (t.S[1][0], t.S[0][1], t.S[3][3], t.TRACE[0].before[1])) = some (0x45, 0x4F, 0x21, 0x45) := by
  decide +kernel

/-- R161, vector K2: the all-zero key. -/
theorem test_keyexp :
    after (exec (.keyexp .decrypt) (withInputs 0 0)) (fun t => (stateToBlock t.RK[1], t.RK[0], t.TRACE[0].uop)) =
      some (hexBlock 0x62636363626363636263636362636363, zeroAes, 0x4100) := by decide +kernel

/-- R146, vector A1 Step 2. -/
theorem test_addrk :
    after (exec (.addrk .encrypt 0) { withS 0x48454C4C4F2041455320574F524C4421 with
        RK := (Vector.replicate 11 zeroAes).set 0 (blockToState (hexBlock 0x4D595345435245544B45593132333435)) })
      (fun t => (stateToBlock t.S, t.TRACE[0].aux_rk)) =
      some (hexBlock 0x051C1F090C72041118650E7E607F7014, hexBlock 0x4D595345435245544B45593132333435) := by
  decide +kernel

/-- R93: in a decrypt program `round` 3 uses `RK[7]`. -/
theorem test_addrk_decrypt_index :
    after (exec (.addrk .decrypt 3) { withS 0 with RK := (Vector.replicate 11 zeroAes).set 7 (blockToState (hexBlock 5)) })
      (fun t => stateToBlock t.S) = some (hexBlock 5) := by decide +kernel

/-- R136, vector A1 Step 3. -/
theorem test_subb : after (exec (.subb 1) (withS 0x051C1F090C72041118650E7E607F7014)) (fun t => stateToBlock t.S) =
    some (hexBlock 0x6B9CC001FE40F282AD4DABF3D0D251FA) := by decide +kernel

/-- R139. -/
theorem test_shrow : after (exec (.shrow 1) (withS 0x000102030405060708090A0B0C0D0E0F)) (fun t => stateToBlock t.S) =
    some (hexBlock 0x00050A0F04090E03080D02070C01060B) := by decide +kernel

/-- R142, vector A1 Step 5. -/
theorem test_mixc : after (exec (.mixc 1) (withS 0x6B40ABFAFE4D5101ADD2C082D09CF2F3)) (fun t => stateToBlock t.S) =
    some (hexBlock 0x47F773B9609612076ECB79E1050DBDF8) := by decide +kernel

/-- R137, vector A2 Step 4. -/
theorem test_isubb : after (exec (.isubb 1) (withS 0xE09CB5D060BA1863AFAE887AFD867D69)) (fun t => stateToBlock t.S) =
    some (hexBlock 0xA01CD26090C034001BBE97BD21DC13E4) := by decide +kernel

/-- R140, vector A2 Step 3. -/
theorem test_ishrow : after (exec (.ishrow 1) (withS 0xE0BA886960AE7DD0AF86B563FD9C187A)) (fun t => stateToBlock t.S) =
    some (hexBlock 0xE09CB5D060BA1863AFAE887AFD867D69) := by decide +kernel

/-- R144, vector A2 Step 6. -/
theorem test_imixc : after (exec (.imixc 1) (withS 0x20096E511E9F9E877117F50353DAAA92)) (fun t => stateToBlock t.S) =
    some (hexBlock 0xF71A956E05C9AEFAE7E458CBDD4F5D7E) := by decide +kernel

/-- R222 and R205, vector D0. -/
theorem test_dinput :
    after (exec (.dinput .encrypt) (withInputs 0x0123456789ABCDEF0000000000000000 0x133457799BBCDFF10000000000000000))
      (fun t => (t.V, t.SK[0])) = some (0x0123456789ABCDEF, 0x1B02EFFC7072) := by decide +kernel

/-- R223, vector D0. -/
theorem test_dip : after (exec (.dip .encrypt) (withV 0x0123456789ABCDEF)) (fun t => t.V) =
    some 0xCC00CCFFF0AAF0AA := by decide +kernel

/-- R224, vector D0, round 1. -/
theorem test_dround :
    after (exec (.dround .encrypt 1) { withV 0xCC00CCFFF0AAF0AA with SK := (Vector.replicate 16 0).set 0 0x1B02EFFC7072 })
      (fun t => (t.V, t.TRACE[0].aux_e, t.TRACE[0].aux_x, t.TRACE[0].aux_sb, t.TRACE[0].aux_f)) =
      some (0xF0AAF0AAEF4A6544, 0x7A15557A1555, 0x6117BA866527, 0x5C82B597, 0x234AA9BB) := by decide +kernel

/-- R93: in a decrypt program `round` 16 uses `SK[0]`. -/
theorem test_dround_decrypt_index :
    after (exec (.dround .decrypt 16) { withV 0 with SK := (Vector.replicate 16 0).set 0 0x1B02EFFC7072 })
      (fun t => t.TRACE[0].aux_sk) = some 0x1B02EFFC7072 := by decide +kernel

/-- R225, vector D0. -/
theorem test_dswap : after (exec (.dswap .encrypt) (withV 0x434232340A4CD995)) (fun t => t.V) =
    some 0x0A4CD99543423234 := by decide +kernel

/-- R226, vector D0: the last micro-op of a run, which also writes `OUT` and enters DONE (R221). -/
theorem test_dfp :
    after (exec (.dfp .encrypt) { withV 0x0A4CD99543423234 with pc := 19 })
      (fun t => (t.V, t.OUT, t.phase, t.pc)) =
      some (0x85E813540F0AB405, hexBlock 0x85E813540F0AB4050000000000000000, .done, 20) := by decide +kernel

/-- R241: the example `RegWrite(0x000, 0x05)` in IDLE. -/
theorem test_start : after (step { State.reset with turns := [.write 0x000 0x05] }) (fun t => (t.phase, t.DIR_L)) =
    some (.busy, .decrypt) := by decide

/-- R240: a START in BUSY is ignored. -/
theorem test_start_busy : after (exec (.startDesDec 0) (withS 0)) (fun t => (t.ALG_L, t.pc)) = some (.aes, 0) := by
  decide

/-- 95 section 6: `STATUS` after a DES decrypt run. -/
theorem test_status : regValue { State.reset with phase := .done, ALG_L := .des, DIR_L := .decrypt } 0x001 = some 0x0E := by
  decide

/-- R38: bits 7:6 are ignored on write. -/
theorem test_tidx : after (step { State.reset with turns := [.write 0x003 0xC5] }) (fun t => regValue t 0x003) =
    some (some 0x05) := by decide

/-! ## The codec, with the examples of R261, R263, R265, R266 -/

theorem test_hexToBlock : hexToBlock [48, 52, 32, 99, 48, 32, 53, 49] 8 = [0x04, 0xC0, 0x51, 0, 0, 0, 0, 0] := by decide

theorem test_blockToHex : blockToHex [0x04, 0xC0, 0x51, 0x48] = [48, 52, 67, 48, 53, 49, 52, 56] := by decide

theorem test_blockToText : blockToText [0x04, 0xC0, 0x51, 0x48, 0x6F, 0x72, 0xC1, 0xF8] = [81, 72, 111, 114] := by decide

theorem test_blockToText_stops : blockToText [0x41, 0x42, 0x00, 0x43] = [65, 66] := by decide

/-! ## The host program -/

/-- R244: the poll ends at the first `STATUS` byte with bit 1 set, and not before. -/
theorem test_pollDone : ((pollDone [0, 5] { State.reset with phase := .done }).map fun t => t.reads.length) = some 1 ∧
    pollDone [0, 3] (withS 0) = none := by decide +kernel

/-- R72: the subkey and the S-box outputs of vector D0, round 1, at 0x048 and 0x090 of the window. -/
theorem test_recordOfWindow :
    recordOfWindow (List.replicate 0x08 0#8 ++ [0x1B, 0x02, 0xEF, 0xFC, 0x70, 0x72] ++ List.replicate 0x42 0#8 ++
      [0x5C, 0x82, 0xB5, 0x97] ++ List.replicate 0x0C 0#8) =
      { zeroRecord with aux_sk := 0x1B02EFFC7072, aux_sb := 0x5C82B597 } := by decide +kernel

/-- R280, log 7: nothing happens where there is no word to fetch. -/
theorem test_no_word : after (step { withS 0 with pc := 50 }) (fun t => (t.pc, t.phase)) = some (50, .busy) := by decide

/-- R99, R96. -/
theorem test_names : listing (.dround .decrypt 16) = "DROUND.D 16" ∧ nameOfUop 0x4200 = some "InitialAddRoundKey" ∧
    nameOfUop 0x020A = some "FinalAddRoundKey" ∧ nameOfUop 0x8210 = some "Round(16)" ∧ nameOfUop 0x0300 = none := by
  decide +kernel

/-! ## Witnesses: the hypotheses of each statement can be met, each clause at its bounds -/

/-- In BUSY, before the first micro-op of an AES encrypt run. -/
def busyAes : State := { State.reset with phase := .busy }

/-- In BUSY, before the first micro-op of a DES decrypt run. -/
def busyDes : State := { State.reset with phase := .busy, ALG_L := .des, DIR_L := .decrypt }

/-- In BUSY, before the last micro-op of a DES decrypt run. -/
def lastDes : State := { busyDes with pc := 19 }

/-- After an AES run. -/
def doneAes : State := { State.reset with phase := .done, pc := 42 }

/-- After a DES run. -/
def doneDes : State := { State.reset with phase := .done, ALG_L := .des, pc := 20 }

/-- `s` with `t` as the only turn to come. -/
def queued (s : State) (t : Turn) : State := { s with turns := [t] }

theorem phaseInv_reset : PhaseInv State.reset := ⟨by decide, by decide, by decide⟩
theorem phaseInv_busyAes : PhaseInv busyAes := ⟨by decide, by decide, by decide⟩
theorem phaseInv_lastDes : PhaseInv lastDes := ⟨by decide, by decide, by decide⟩
theorem phaseInv_doneAes : PhaseInv doneAes := ⟨by decide, by decide, by decide⟩
theorem phaseInv_doneDes : PhaseInv doneDes := ⟨by decide, by decide, by decide⟩

theorem step_busyAes : ∃ t, step busyAes = .next t :=
  ⟨_, (step_nil rfl).trans ((sequencerTurn_busy (w := 0x0000) rfl rfl rfl).trans (exec_blk2st .encrypt busyAes))⟩

theorem step_lastDes : ∃ t, step lastDes = .next t :=
  ⟨_, (step_nil rfl).trans ((sequencerTurn_busy (w := 0xC400) rfl rfl rfl).trans (exec_dfp .decrypt lastDes))⟩

theorem witness_GmulObeysTheFieldLaws : (0x01 : Byte) ≠ 0x00 ∧ (0xFF : Byte) ≠ 0x00 := by decide

theorem witness_KeyExpansionRecurrence :
    (0 + 1 < 10 ∧ 8 + 1 < 10) ∧ (4 ≤ 4 ∧ 4 < 44) ∧ (4 ≤ 43 ∧ 43 < 44) := by decide

theorem witness_FinalPermutationInvertsInitial : (1 ≤ 1 ∧ 1 ≤ 64) ∧ (1 ≤ 64 ∧ 64 ≤ 64) := by decide

/-- The key of vector D0, and the same key with all eight parity bits changed. -/
theorem witness_ParityBitsHaveNoEffect : ∀ p, 1 ≤ p → p ≤ 64 → p % 8 ≠ 0 →
    bitAt (0x133457799BBCDFF1 : BitVec 64) p = bitAt (0x123556789ABDDEF0 : BitVec 64) p := by
  have h : ∀ p, p < 65 → 1 ≤ p → p % 8 ≠ 0 →
      bitAt (0x133457799BBCDFF1 : BitVec 64) p = bitAt (0x123556789ABDDEF0 : BitVec 64) p := by decide
  exact fun p h1 h2 => h p (by omega) h1

theorem witness_DesScheduleRotatesAndSelects :
    (1 ≤ 1 ∧ 1 ≤ 28) ∧ (1 ≤ 28 ∧ 28 ≤ 28) ∧ (0 < 16 ∧ 15 < 16) ∧ (1 ≤ 1 ∧ 1 ≤ 48) ∧ (1 ≤ 48 ∧ 48 ≤ 48) := by decide

theorem witness_FeistelExpandsSubstitutesPermutes :
    (1 ≤ 1 ∧ 1 ≤ 48) ∧ (1 ≤ 48 ∧ 48 ≤ 48) ∧ (1 ≤ 1 ∧ 1 ≤ 8) ∧ (1 ≤ 8 ∧ 8 ≤ 8) ∧ (1 ≤ 1 ∧ 1 ≤ 32) ∧
    (1 ≤ 32 ∧ 32 ≤ 32) := by decide

theorem witness_DecodeOfEncodeIsIdentity : (Instr.addrk .decrypt 10).wf = true ∧ (Instr.mixc 9).wf = true ∧
    (Instr.dround .encrypt 16).wf = true ∧ (Instr.startDesDec 31).wf = true := by decide

theorem witness_EncodeOfDecodeIsIdentity :
    decode (.u 0xC210) = .ok (.dround .decrypt 16) ∧ decode (.c 0xFF) = .ok (.startDesDec 31) := by decide

theorem witness_LegalWordsAreTheMicroPrograms : (0x470A : UWord) ∈ rom .aes .decrypt ∧
    (Instr.addrk .decrypt 0).wf = true ∧ (Instr.addrk .encrypt 10).wf = true ∧
    (Instr.dround .decrypt 1).wf = true ∧ (Instr.dround .encrypt 16).wf = true := by decide

theorem witness_AddrkXorsTheIndexedRoundKey : (0 : BitVec 5).toNat ≤ 10 ∧ (10 : BitVec 5).toNat ≤ 10 := by decide

theorem witness_SubbAndIsubbSubstituteEveryByte : (1 ≤ (1 : BitVec 5).toNat ∧ (1 : BitVec 5).toNat ≤ 10) ∧
    (1 ≤ (10 : BitVec 5).toNat ∧ (10 : BitVec 5).toNat ≤ 10) := by decide

theorem witness_ShrowAndIshrowRotateRows : (1 ≤ (1 : BitVec 5).toNat ∧ (10 : BitVec 5).toNat ≤ 10) ∧
    (∀ r c c' : Fin 4, (blockToState (hexBlock 0x01020304010203040102030401020304))[r][c] =
      (blockToState (hexBlock 0x01020304010203040102030401020304))[r][c']) := by decide +kernel

theorem witness_MixcAndImixcMultiplyColumns : (1 ≤ (1 : BitVec 5).toNat ∧ (1 : BitVec 5).toNat ≤ 9) ∧
    (1 ≤ (9 : BitVec 5).toNat ∧ (9 : BitVec 5).toNat ≤ 9) ∧
    (∀ r : Fin 4, (blockToState (hexBlock 0x0000000000000000000000007B7B7B7B))[r][(3 : Fin 4)] = 0x7B) := by
  decide +kernel

/-- Two states that differ in `MSG[8]` and `KEY[15]`. -/
theorem witness_DinputLoadsBlockAndSubkeys :
    (∀ i, i < 8 → byteOf (withInputs 5 6).MSG i = byteOf (withInputs (5 + 0x0100000000000000) 7).MSG i ∧
      byteOf (withInputs 5 6).KEY i = byteOf (withInputs (5 + 0x0100000000000000) 7).KEY i) ∧
    (∃ t, exec (.dinput .encrypt) (withInputs 5 6) = .next t) ∧
    (∃ t, exec (.dinput .encrypt) (withInputs (5 + 0x0100000000000000) 7) = .next t) :=
  ⟨by decide +kernel, ⟨_, exec_dinput _ _⟩, ⟨_, exec_dinput _ _⟩⟩

theorem witness_DipAndDfpPermuteTheVector : (1 ≤ 1 ∧ 1 ≤ 64) ∧ (1 ≤ 64 ∧ 64 ≤ 64) := by decide

theorem witness_DroundUpdatesAndRecords : (1 ≤ 1 ∧ 1 ≤ 16) ∧ (1 ≤ 16 ∧ 16 ≤ 16) ∧
    (1 ≤ (1 : BitVec 5).toNat ∧ (1 : BitVec 5).toNat ≤ 16) ∧
    (1 ≤ (16 : BitVec 5).toNat ∧ (16 : BitVec 5).toNat ≤ 16) := by decide

theorem witness_DswapExchangesTheHalves :
    leftHalf 0x0A4CD9950A4CD995 = rightHalf 0x0A4CD9950A4CD995 := by decide

theorem witness_IllFormedMicroOpsAreRefused : (Instr.addrk .encrypt 11).wf = false ∧ (Instr.subb 0).wf = false ∧
    (Instr.mixc 10).wf = false ∧ (Instr.dround .decrypt 17).wf = false ∧ (Instr.dround .encrypt 0).wf = false := by
  decide

theorem witness_StartBeginsARun :
    State.reset.phase ≠ .busy ∧ doneDes.phase ≠ .busy ∧ busyAes.phase = .busy := by decide

theorem witness_CtrlRegisterStartsRuns :
    ((queued doneAes (.write 0x000 0xFF)).turns = .write 0x000 0xFF :: [] ∧ doneAes.phase ≠ .busy ∧
      (0xFF : Byte).getLsbD 0 = true) ∧
    ((queued State.reset (.write 0x000 0xFE)).turns = .write 0x000 0xFE :: [] ∧ (0xFE : Byte).getLsbD 0 = false) ∧
    ((queued busyAes (.write 0x000 0x01)).turns = .write 0x000 0x01 :: [] ∧ busyAes.phase = .busy) := by decide

theorem witness_WritesWhileBusyAreIgnored :
    (queued busyDes (.write 0x1FF 0x55)).turns = .write 0x1FF 0x55 :: [] ∧ (queued busyDes (.write 0x1FF 0x55)).phase =
      .busy ∧ (queued busyAes (.write 0x000 0x01)).turns = .write 0x000 0x01 :: [] := by decide

/-- `TIDX`, the ends of `MSG` and `KEY`, and an offset that stores nothing. -/
theorem witness_HostWritesStoreOneByte : ∀ off ∈ [0x003#9, 0x010, 0x01F, 0x020, 0x02F, 0x030, 0x1FF],
    (queued State.reset (.write off 0xC5)).turns = .write off 0xC5 :: [] ∧
    (queued State.reset (.write off 0xC5)).phase ≠ .busy ∧ off ≠ 0x000 := by
  simp [queued, State.reset]

theorem witness_ReadsHaveNoSideEffect :
    (queued doneAes (.read 0x030)).turns = .read 0x030 :: [] ∧ regValue (queued doneAes (.read 0x030)) 0x030 = some 0 ∧
    (queued busyAes (.read 0x030)).turns = .read 0x030 :: [] ∧ regValue (queued busyAes (.read 0x030)) 0x030 = none := by
  decide

theorem witness_StatusNstepsAndTidxRead : (PhaseInv State.reset ∧ State.reset.phase = .idle) ∧
    (PhaseInv busyAes ∧ busyAes.phase = .busy) ∧ (PhaseInv doneAes ∧ doneAes.phase = .done) ∧
    (PhaseInv doneDes ∧ doneDes.phase = .done) :=
  ⟨⟨phaseInv_reset, rfl⟩, ⟨phaseInv_busyAes, rfl⟩, ⟨phaseInv_doneAes, rfl⟩, ⟨phaseInv_doneDes, rfl⟩⟩

theorem witness_ResultReadsNeedDone :
    (0x004 ≤ (0x004 : Offset).toNat ∧ (0x00F : Offset).toNat ≤ 0x00F) ∧
    (0x0A0 ≤ (0x0A0 : Offset).toNat ∧ (0x0FF : Offset).toNat ≤ 0x0FF) ∧ 0x1B0 ≤ (0x1B0 : Offset).toNat ∧
    (0x01F : Offset).toNat = 0x010 + (15 : Fin 16).val ∧ (0x02F : Offset).toNat = 0x020 + (15 : Fin 16).val ∧
    (0x03F : Offset).toNat = 0x030 + (15 : Fin 16).val ∧ doneAes.phase = .done := by decide

/-- The last record of a full trace, one index beyond it, and the ends of the window's fields. -/
theorem witness_TraceWindowLayout :
    ({ doneAes with TIDX := 41 }.phase = .done ∧ { doneAes with TIDX := 41 }.TIDX.toNat < 42 ∧
      { doneAes with TIDX := 41 }.TIDX.toNat < { doneAes with TIDX := 41 }.pc.toNat) ∧
    ({ doneDes with TIDX := 20 }.phase = .done ∧
      { doneDes with TIDX := 20 }.pc.toNat ≤ { doneDes with TIDX := 20 }.TIDX.toNat) ∧
    (0x040 ≤ (0x040 : Offset).toNat ∧ (0x09F : Offset).toNat ≤ 0x09F) ∧
    (0x04D : Offset).toNat = 0x048 + (5 : Fin 6).val ∧ (0x085 : Offset).toNat = 0x080 + (5 : Fin 6).val ∧
    (0x08D : Offset).toNat = 0x088 + (5 : Fin 6).val ∧ (0x05F : Offset).toNat = 0x050 + (15 : Fin 16).val ∧
    (0x06F : Offset).toNat = 0x060 + (15 : Fin 16).val ∧ (0x07F : Offset).toNat = 0x070 + (15 : Fin 16).val ∧
    (0x093 : Offset).toNat = 0x090 + (3 : Fin 4).val ∧ (0x097 : Offset).toNat = 0x094 + (3 : Fin 4).val ∧
    (0x042 ≤ (0x042 : Offset).toNat ∧ (0x047 : Offset).toNat ≤ 0x047) ∧
    (0x04E ≤ (0x04E : Offset).toNat ∧ (0x04F : Offset).toNat ≤ 0x04F) ∧
    (0x086 ≤ (0x086 : Offset).toNat ∧ (0x087 : Offset).toNat ≤ 0x087) ∧
    (0x08E ≤ (0x08E : Offset).toNat ∧ (0x08F : Offset).toNat ≤ 0x08F) ∧ 0x098 ≤ (0x098 : Offset).toNat := by decide

theorem witness_KeyScheduleWindowLayout :
    (doneAes.phase = .done ∧ doneAes.ALG_L = .aes ∧ (0x1AF : Offset).toNat = 0x100 + 16 * (10 : Fin 11).val +
      (15 : Fin 16).val) ∧
    (doneDes.phase = .done ∧ doneDes.ALG_L = .des ∧ (0x17F : Offset).toNat = 0x100 + 8 * (15 : Fin 16).val +
      (7 : Fin 8).val) ∧
    (0x180 ≤ (0x180 : Offset).toNat ∧ (0x1AF : Offset).toNat ≤ 0x1AF) := by decide

theorem witness_DesPackingIsMsbFirst : (0 < 8 ∧ 7 < 8) ∧ (64 = 8 * 8 ∧ 7 < 8) ∧ (48 = 8 * 6 ∧ 5 < 6) ∧
    (32 = 8 * 4 ∧ 3 < 4) := by decide

theorem witness_ResetFixesControlAndInputs :
    (queued lastDes .reset).turns = .reset :: [] ∧ (0x02F : Offset).toNat ≤ 0x02F ∧ lastDes.phase ≠ .done := by decide

theorem witness_StepRunsTheDecodedInstruction :
    (busyAes.turns = [] ∧ busyAes.phase = .busy ∧ (rom busyAes.ALG_L busyAes.DIR_L)[busyAes.pc.toNat]? = some 0x0000 ∧
      decodeU 0x0000 = .ok (.blk2st .encrypt)) ∧
    ((queued lastDes .sequencer).turns = .sequencer :: [] ∧ (queued lastDes .sequencer).phase = .busy ∧
      (rom lastDes.ALG_L lastDes.DIR_L)[lastDes.pc.toNat]? = some 0xC400 ∧ decodeU 0xC400 = .ok (.dfp .decrypt)) ∧
    ((queued doneAes (.write 0x000 0x07)).turns = .write 0x000 0x07 :: [] ∧ decodeC 0x07 = .ok (.startDesDec 0)) ∧
    (doneAes.phase ≠ .busy ∧ doneAes.turns = []) ∧ (queued doneAes .sequencer).turns = .sequencer :: [] := by decide

theorem witness_StepKeepsPhaseInvariant : PhaseInv lastDes ∧ ∃ t, step lastDes = .next t :=
  ⟨phaseInv_lastDes, step_lastDes⟩

theorem witness_PhaseTransitions : PhaseInv lastDes ∧ ∃ t, step lastDes = .next t :=
  ⟨phaseInv_lastDes, step_lastDes⟩

theorem witness_StepKeepsTraceInvariant : PhaseInv busyAes ∧ TraceInv busyAes ∧ ∃ t, step busyAes = .next t :=
  ⟨phaseInv_busyAes, ⟨fun j _ h => absurd h (Nat.not_lt_zero j), fun j _ h => absurd h (Nat.not_lt_zero (j + 1)),
    fun _ j _ h => absurd h (Nat.succ_ne_zero j), fun h => Phase.noConfusion h⟩, step_busyAes⟩

theorem witness_StepKeepsKeyFileInvariant : PhaseInv busyAes ∧ KeyFileInv busyAes ∧ ∃ t, step busyAes = .next t :=
  ⟨phaseInv_busyAes, ⟨fun _ _ h => absurd h (Nat.not_succ_le_zero 1), fun _ h => Alg.noConfusion h⟩, step_busyAes⟩

/-- From reset, the host's write of a START leads to BUSY. -/
theorem witness_TheMachineNeverStops : Reachable busyAes ∧ busyAes.phase = .busy :=
  ⟨⟨[.write 0x000 0x01], 1, rfl⟩, rfl⟩

theorem witness_AesRunComputesItsTrace :
    busyAes.phase = .busy ∧ busyAes.ALG_L = .aes ∧ busyAes.pc = 0 ∧ busyAes.turns = [] := by decide

theorem witness_DesRunComputesItsTrace :
    busyDes.phase = .busy ∧ busyDes.ALG_L = .des ∧ busyDes.pc = 0 ∧ busyDes.turns = [] := by decide

theorem witness_AesDecryptWalksEncryptBackwards : (2 ≤ 2 ∧ 2 ≤ 41) ∧ (2 ≤ 41 ∧ 41 ≤ 41) := by decide

theorem witness_DesDecryptWalksEncryptBackwards : 0 ≤ 16 ∧ 16 ≤ 16 ∧ (1 ≤ 1 ∧ 1 ≤ 16) ∧ (1 ≤ 16 ∧ 16 ≤ 16) := by decide

/-- The last micro-op of a run, with a read and an ignored START before it. -/
theorem witness_HostAccessesDoNotDisturbARun : PhaseInv lastDes ∧ lastDes.phase = .busy ∧
    (∀ x ∈ [Turn.read 0x030, .write 0x000 0x01, .sequencer], x ≠ .reset) ∧
    [Turn.read 0x030, .write 0x000 0x01, .sequencer].count .sequencer = 1 ∧
    lastDes.pc.toNat + 1 ≤ traceLength lastDes.ALG_L ∧
    [Turn.read 0x030, .write 0x000 0x01, .sequencer].getLast? = some .sequencer :=
  ⟨phaseInv_lastDes, by decide, by decide, by decide, by decide, by decide⟩

/-- Two states that differ in much else, and for DES in bytes 8 and 15 of `MSG` and `KEY`. -/
theorem witness_RunsAreDeterministic : (State.reset.phase ≠ .busy ∧ doneDes.phase ≠ .busy ∧
      ∀ i, i < blockSize .aes →
        byteOf State.reset.MSG i = byteOf doneDes.MSG i ∧ byteOf State.reset.KEY i = byteOf doneDes.KEY i) ∧
    (∀ i, i < blockSize .des →
      byteOf { doneDes with MSG := hexBlock 0x0100000000000000 }.MSG i = byteOf doneDes.MSG i ∧
      byteOf { doneDes with KEY := hexBlock 0x01 }.KEY i = byteOf doneDes.KEY i) := by decide +kernel

theorem witness_TextToBlockPadsAndTruncates : (∀ c ∈ [0, 255], c ≤ 255) ∧ 0 < 16 ∧ 15 < 16 := by decide

/-- Lower case and a space: "04 c0" is the block 04 C0. -/
theorem witness_HexRoundTrip : ([0x04, 0xC0] : List Byte)[1]? = some 0xC0 ∧ (([48, 52, 32, 99, 48] : Text).filter (fun c => !isWhitespace c)).map upperHex =
    blockToHex [0x04, 0xC0] := by decide

theorem witness_PrintableTextRoundTrip : ([32, 126] : Text).length ≤ 8 ∧ ∀ c ∈ ([32, 126] : Text), 32 ≤ c ∧ c ≤ 126 := by
  decide

theorem witness_RunCipherLoadsAndStarts : State.reset.phase ≠ .busy ∧ doneAes.phase ≠ .busy ∧
    (7 : Fin 16).val < blockSize .des ∧ blockSize .des ≤ (8 : Fin 16).val ∧ (15 : Fin 16).val < blockSize .aes := by
  decide

/-- "AB" under the key "K" for DES, and the empty text for AES, with the shortest schedules that are enough and the
longest that are not. -/
theorem witness_RunCipherReturnsTheTrace : State.reset.phase ≠ .busy ∧ doneDes.phase ≠ .busy ∧
    (hexBlock 0x41420000000000000000000000000000).toList.take (blockSize .des) =
      byDir .encrypt (textToBlock [65, 66] (blockSize .des)) (hexToBlock [65, 66] (blockSize .des)) ∧
    (hexBlock 0x4B000000000000000000000000000000).toList.take (blockSize .des) = textToBlock [75] (blockSize .des) ∧
    zeroBlock.toList.take (blockSize .aes) =
      byDir .decrypt (textToBlock [] (blockSize .aes)) (hexToBlock [] (blockSize .aes)) ∧
    traceLength .des ≤ [0, 13, 7].sum ∧ [0, 13, 6].sum < traceLength .des ∧ traceLength .aes ≤ [42].sum ∧
    ([] : List Nat).sum < traceLength .aes := by
  decide +kernel

end Sys2Proof.Tests
end

/-! SUPPORT. What one step can do to CORE's state, in one inversion lemma, and what the control registers read; from
them the invariants of 10_state.md sections 3 and 4, the control registers of section 6 and the reset of section 7. -/

namespace Sys2Proof.Proofs

open Sys2Proof Sys2Proof.Machine Sys2Proof.Claim

/-! ### What a step does to CORE's state -/

/-- Changing the environment's three fields leaves CORE's own state as it was. -/
theorem sameCore_env (s : State) (ts : List Turn) (rs : List HostRead) (n : Nat) :
    SameCore s { s with turns := ts, reads := rs, draws := n } := by
  constructor <;> rfl

/-- All that a step which goes on can do: nothing to CORE's state; a host store or an accepted START, each outside BUSY;
in BUSY the fetched micro-op; a reset. -/
inductive StepEffect (s t : State) : Prop
  | kept (same : SameCore s t)
  | stored (off : Offset) (b : Byte) (ts : List Turn) (notBusy : s.phase ≠ .busy)
      (result : t = regStore off b (s.withTurns ts))
  | started (b : Byte) (a : Alg) (d : Dir) (rest : List Turn) (notBusy : s.phase ≠ .busy)
      (turn : s.turns = .write 0#9 b :: rest) (command : commandFields b = some (a, d))
      (result : t = (s.withTurns rest).startRun a d)
  | ran (w : UWord) (i : Instr) (ts : List Turn) (busy : s.phase = .busy) (fetched : fetch s = some w)
      (decoded : decodeU w = .ok i) (result : exec i (s.withTurns ts) = .next t)
  | wasReset (rest : List Turn) (turn : s.turns = .reset :: rest) (result : t = applyReset (s.withTurns rest))

theorem sequencerTurn_effect {s t : State} {ts : List Turn} (h : sequencerTurn (s.withTurns ts) = .next t) :
    StepEffect s t := by
  obtain ⟨-, rfl⟩ | ⟨hb, w, i, hf, hd, he⟩ := sequencerTurn_next h
  · exact .kept (sameCore_env s ts s.reads s.draws)
  · exact .ran w i ts hb hf hd he

theorem regRead_effect (s : State) (off : Offset) (ts : List Turn) : StepEffect s (regRead off (s.withTurns ts)) := by
  obtain ⟨b, -, h⟩ | ⟨-, h⟩ := regRead_cases off (s.withTurns ts) <;> rw [h]
  · exact .kept (sameCore_env s ts (⟨off, b⟩ :: s.reads) s.draws)
  · exact .kept (sameCore_env s ts (⟨off, Config.freeByte s.draws⟩ :: s.reads) (s.draws + 1))

theorem regWrite_effect {s : State} {off : Offset} {b : Byte} {rest : List Turn}
    (turn : s.turns = .write off b :: rest) : StepEffect s (regWrite off b (s.withTurns rest)) := by
  have taken : StepEffect s (s.withTurns rest) := .kept (sameCore_env s rest s.reads s.draws)
  obtain ⟨-, h⟩ | ⟨hb, rfl, ⟨a, d, hc, h⟩ | ⟨-, h⟩⟩ | ⟨hb, -, h⟩ := regWrite_cases off b (s.withTurns rest) <;> rw [h]
  · exact taken
  · exact .started b a d rest hb turn hc rfl
  · exact taken
  · exact .stored off b rest hb rfl

/-- The inversion lemma of `step` over CORE's state. -/
theorem step_effect {s t : State} (h : step s = .next t) : StepEffect s t := by
  obtain ⟨-, h⟩ | ⟨rest, -, h⟩ | ⟨off, rest, -, rfl⟩ | ⟨off, b, rest, turn, rfl⟩ | ⟨rest, turn, rfl⟩ := step_next h
  · exact sequencerTurn_effect (ts := s.turns) h
  · exact sequencerTurn_effect h
  · exact regRead_effect s off rest
  · exact regWrite_effect turn
  · exact .wasReset rest turn rfl

/-- A host store leaves the phase machine and the latched command as they were (R240). -/
theorem regStore_control (off : Offset) (b : Byte) (s : State) :
    (regStore off b s).phase = s.phase ∧ (regStore off b s).pc = s.pc ∧ (regStore off b s).ALG_L = s.ALG_L ∧
    (regStore off b s).DIR_L = s.DIR_L := by
  obtain ⟨-, h⟩ | ⟨-, -, h⟩ | ⟨-, -, h⟩ | h := regStore_cases off b s <;> rw [h] <;> exact ⟨rfl, rfl, rfl, rfl⟩

/-! ### The fetched micro-op -/

/-- A word is fetched only within the program (R104). -/
theorem pc_lt_of_fetch {s : State} {w : UWord} (h : fetch s = some w) : s.pc.toNat < traceLength s.ALG_L := by
  rw [← length_rom s.ALG_L s.DIR_L]
  exact (List.getElem?_eq_some_iff.1 h).1

/-- What the sequencer fetches is a micro-op of the latched algorithm, and it writes the key file exactly at its
index. -/
theorem fetched_instr {s : State} {w : UWord} {i : Instr} (hf : fetch s = some w) (hd : decodeU w = .ok i) :
    i.isMicro = true ∧ algOfInstr i = some s.ALG_L ∧
    (writesKeyFile i = true ↔ s.pc.toNat = keyFileIndex s.ALG_L) := by
  obtain ⟨j, hj, -, hm, ha, -, hk, -⟩ := rom_word hf
  obtain rfl : j = i := by simpa [hj] using hd
  exact ⟨hm, ha, hk⟩

/-- Six bits hold every length of a program, so `pc` does not wrap within one (R23). -/
theorem toNat_pc_succ {pc : BitVec 6} {a : Alg} (h : pc.toNat < traceLength a) : (pc + 1).toNat = pc.toNat + 1 := by
  have := traceLength_le a
  bv_omega

/-- What a micro-op does to the phase machine: `pc` advances, and the run is DONE exactly at the program's length
(R104, R22). -/
theorem exec_micro_control {i : Instr} {s t : State} (hm : i.isMicro = true) (h : exec i s = .next t) :
    t.pc = s.pc + 1 ∧ t.ALG_L = s.ALG_L ∧ t.KEY = s.KEY ∧
    t.phase = (if t.pc.toNat = traceLength s.ALG_L then .done else s.phase) := by
  obtain ⟨-, s', r, rfl, same, -⟩ := exec_micro_next hm h
  refine ⟨by simp [same.pc], by simp [same.ALG_L], by simp [same.KEY], ?_⟩
  split
  next hN => exact (s'.recordStep_last r (by simpa [same.ALG_L] using hN)).2
  next hN => rw [(s'.recordStep_not_last r (by simpa [same.ALG_L] using hN)).2, same.phase]

/-! ### The phase machine (R22, R23) -/

/-- The phase invariant reads only the phase machine and the latched command. -/
theorem phaseInv_of_control_eq {s t : State} (h : PhaseInv s) (hph : t.phase = s.phase) (hpc : t.pc = s.pc)
    (ha : t.ALG_L = s.ALG_L) (hd : t.DIR_L = s.DIR_L) : PhaseInv t := by
  constructor <;> rw [hph, hpc, ha]
  · rw [hd]; exact h.idle
  · exact h.busy
  · exact h.done

theorem phaseInv_startRun (s : State) (a : Alg) (d : Dir) : PhaseInv (s.startRun a d) where
  idle h := by cases h
  busy _ := traceLength_pos a
  done h := by cases h

theorem phaseInv_applyReset (s : State) : PhaseInv (applyReset s) where
  idle _ := ⟨rfl, rfl, rfl⟩
  busy h := by cases h
  done h := by cases h

/-- A fetched micro-op stays in BUSY below the program's length, or is DONE at it. -/
theorem phaseInv_exec_micro {i : Instr} {s t : State} (hm : i.isMicro = true) (hb : s.phase = .busy)
    (hlt : s.pc.toNat < traceLength s.ALG_L) (h : exec i s = .next t) : PhaseInv t := by
  obtain ⟨hpc, ha, -, hph⟩ := exec_micro_control hm h
  have hsucc : t.pc.toNat = s.pc.toNat + 1 := hpc ▸ toNat_pc_succ hlt
  rw [← ha] at hlt hph
  split at hph
  next hN => constructor <;> simp [hph, hN]
  next hN => constructor <;> simp [hph, hb]; omega

/-- Settles O44, by the inversion lemma of `step`. -/
theorem stepKeepsPhaseInvariant : Obligations.StepKeepsPhaseInvariant := by
  intro s t inv hstep
  cases step_effect hstep with
  | kept same => exact phaseInv_of_control_eq inv same.phase same.pc same.ALG_L same.DIR_L
  | stored off b ts _ result =>
    obtain ⟨hph, hpc, ha, hd⟩ := regStore_control off b (s.withTurns ts)
    subst result
    exact phaseInv_of_control_eq inv hph hpc ha hd
  | started b a d rest _ _ _ result => exact result ▸ phaseInv_startRun _ a d
  | ran w i ts busy fetched decoded result =>
    have hm := (fetched_instr fetched decoded).1
    exact phaseInv_exec_micro (s := s.withTurns ts) hm busy (pc_lt_of_fetch fetched) result
  | wasReset rest _ result => exact result ▸ phaseInv_applyReset _

/-- A byte that is a command has bit 0 set (R94). -/
theorem start_bit_of_commandFields {b : Byte} {ad : Alg × Dir} (h : commandFields b = some ad) :
    b.getLsbD 0 = true := by
  unfold commandFields at h
  split at h
  · assumption
  · cases h

/-- Settles O45: only a START, the last micro-op and a reset change `phase`, case by case of the step's effect. -/
theorem phaseTransitions : Obligations.PhaseTransitions := by
  intro s t _ hstep
  cases step_effect hstep with
  | kept same => exact .inl same.phase
  | stored off b ts _ result =>
    subst result
    exact .inl (regStore_control off b (s.withTurns ts)).1
  | started b a d rest notBusy turn command result =>
    subst result
    exact .inr (.inl ⟨notBusy, rfl, rfl, b, rest, turn, start_bit_of_commandFields command⟩)
  | ran w i ts busy fetched decoded result =>
    obtain ⟨hpc, -, -, hph⟩ := exec_micro_control (fetched_instr fetched decoded).1 result
    split at hph
    next hN => exact .inr (.inr (.inl ⟨busy, hph, hpc, hN⟩))
    next => exact .inl hph
  | wasReset rest turn result => exact .inr (.inr (.inr ⟨result ▸ rfl, rest, turn⟩))

/-! ### The key file (R29, R30, R304) -/

/-- The key file of the algorithm is the schedule of `KEY`. -/
def KeyFileHolds (a : Alg) (s : State) : Prop :=
  match a with
  | .aes => s.RK = roundKeys s.KEY
  | .des => s.SK = desKeySchedule (bitsOf8 s.KEY)

/-- `KeyFileInv` in one clause: in BUSY, past the micro-op that writes the key file, it holds. -/
theorem keyFileInv_iff (s : State) :
    KeyFileInv s ↔ (s.phase = .busy → keyFileIndex s.ALG_L < s.pc.toNat → KeyFileHolds s.ALG_L s) := by
  constructor
  · intro h hb hlt
    cases ha : s.ALG_L <;> rw [ha] at hlt
    · exact h.aes hb ha hlt
    · exact h.des hb ha hlt
  · intro h
    constructor <;> intro hb ha hlt <;> rw [ha] at h <;> exact h hb hlt

theorem keyFileInv_of_not_busy {s : State} (h : s.phase ≠ .busy) : KeyFileInv s :=
  (keyFileInv_iff s).2 fun hb => absurd hb h

/-- KEYEXP and DINPUT write the schedule of `KEY` into their algorithm's key file (R161, R222). -/
theorem exec_keyFile_written {i : Instr} {s t : State} {a : Alg} (hk : writesKeyFile i = true)
    (ha : algOfInstr i = some a) (h : exec i s = .next t) : KeyFileHolds a t := by
  cases i with
  | keyexp dir =>
    cases ha
    cases (exec_keyexp dir s).symm.trans h
    simp [KeyFileHolds]
  | dinput dir =>
    cases ha
    cases (exec_dinput dir s).symm.trans h
    simp [KeyFileHolds]
  | _ => exact Bool.noConfusion hk

/-- Every other micro-op leaves both key files as they were (R29, R30). -/
theorem exec_keyFile_kept {i : Instr} {s t : State} (hm : i.isMicro = true) (hk : writesKeyFile i = false)
    (h : exec i s = .next t) : t.RK = s.RK ∧ t.SK = s.SK := by
  cases i with
  | keyexp | dinput => exact Bool.noConfusion hk
  | startAesEnc | startDesEnc | startAesDec | startDesDec => exact Bool.noConfusion hm
  | blk2st | addrk | subb | shrow | mixc | isubb | ishrow | imixc | dip | dround | dswap | dfp =>
    simp only [exec, execBlk2st, execAddrk, execSubb, execShrow, execMixc, execIsubb, execIshrow, execImixc, execDip,
      execDround, execDswap, execDfp, aesMicroOp, desMicroOp] at h
    obtain ⟨-, rfl⟩ := commit_next h
    exact ⟨by simp, by simp⟩

theorem keyFileHolds_of_eq {s t : State} (hK : t.KEY = s.KEY) (hRK : t.RK = s.RK) (hSK : t.SK = s.SK) (a : Alg)
    (h : KeyFileHolds a s) : KeyFileHolds a t := by
  cases a <;> simpa only [KeyFileHolds, hK, hRK, hSK] using h

/-- A fetched micro-op writes the key file at its index, and past it keeps what was written. -/
theorem keyFileInv_exec_fetched {s t : State} {w : UWord} {i : Instr} (inv : KeyFileInv s) (hb : s.phase = .busy)
    (hf : fetch s = some w) (hd : decodeU w = .ok i) (h : exec i s = .next t) : KeyFileInv t := by
  obtain ⟨hm, ha, hk⟩ := fetched_instr hf hd
  obtain ⟨hpc, hALG, hKEY, -⟩ := exec_micro_control hm h
  have hsucc : t.pc.toNat = s.pc.toNat + 1 := hpc ▸ toNat_pc_succ (pc_lt_of_fetch hf)
  rw [keyFileInv_iff, hALG]
  intro _ hlt
  by_cases hidx : s.pc.toNat = keyFileIndex s.ALG_L
  · exact exec_keyFile_written (hk.2 hidx) ha h
  · obtain ⟨hRK, hSK⟩ := exec_keyFile_kept hm (by simpa using mt hk.1 hidx) h
    exact keyFileHolds_of_eq hKEY hRK hSK _ ((keyFileInv_iff s).1 inv hb (by omega))

/-- Settles O47: outside BUSY nothing is asked, START is before the key file's micro-op, and the micro-ops keep it. -/
theorem stepKeepsKeyFileInvariant : Obligations.StepKeepsKeyFileInvariant := by
  intro s t _ inv hstep
  cases step_effect hstep with
  | kept same =>
    rw [keyFileInv_iff, same.phase, same.ALG_L, same.pc]
    exact fun hb hlt => keyFileHolds_of_eq same.KEY same.RK same.SK _ ((keyFileInv_iff s).1 inv hb hlt)
  | stored off b ts notBusy result =>
    subst result
    exact keyFileInv_of_not_busy ((regStore_control off b (s.withTurns ts)).1 ▸ notBusy)
  | started b a d rest _ _ _ result =>
    subst result
    exact (keyFileInv_iff _).2 fun _ hlt => absurd hlt (Nat.not_lt_zero _)
  | ran w i ts busy fetched decoded result =>
    have inv' : KeyFileInv (s.withTurns ts) := ⟨inv.aes, inv.des⟩
    exact keyFileInv_exec_fetched inv' busy fetched decoded result
  | wasReset rest _ result => exact result ▸ keyFileInv_of_not_busy nofun

/-! ### The control registers (R35 to R38) -/

@[simp] theorem regValue_ctrl (s : State) : regValue s 0x000 = some 0x00 := rfl
@[simp] theorem regValue_status (s : State) : regValue s 0x001 = some (statusByte s) := rfl
@[simp] theorem regValue_nsteps (s : State) : regValue s 0x002 = nstepsByte s := rfl
@[simp] theorem regValue_tidx (s : State) : regValue s 0x003 = some (tidxByte s) := rfl

/-- A command byte names its algorithm in bit 1 and its direction in bit 2; bits 7:3 play no part (R35, R94). -/
theorem commandFields_of_start_bit {b : Byte} (h : b.getLsbD 0 = true) :
    commandFields b = some (if b.getLsbD 1 then .des else .aes, if b.getLsbD 2 then .decrypt else .encrypt) := by
  rw [commandFields, if_pos h]
  cases b.getLsbD 1 <;> cases b.getLsbD 2 <;> rfl

theorem commandFields_of_not_start_bit {b : Byte} (h : b.getLsbD 0 = false) : commandFields b = none :=
  if_neg (ne_true_of_eq_false h)

/-- Settles O32, from the two cases of the command byte. -/
theorem ctrlRegisterStartsRuns : Obligations.CtrlRegisterStartsRuns := by
  refine ⟨fun s b rest turn => ?_, regValue_ctrl⟩
  rw [step_cons turn, takeTurn]
  refine ⟨fun hb h0 => ?_, fun h0 => ?_, fun hb => ?_⟩
  · simp [regWrite, hb, commandFields_of_start_bit h0, State.startRun, State.withTurns]
  · simp [regWrite, commandFields_of_not_start_bit h0, State.withTurns]
  · simp [regWrite, hb, State.withTurns]

/-- The four used bits of `STATUS` and its zero bits (R37). -/
theorem getLsbD_statusByte (s : State) :
    (statusByte s).getLsbD 0 = busyFlag s ∧ (statusByte s).getLsbD 1 = doneFlag s ∧
    (statusByte s).getLsbD 2 = bitOfAlg s.ALG_L ∧ (statusByte s).getLsbD 3 = bitOfDir s.DIR_L ∧
    ∀ k, 4 ≤ k → (statusByte s).getLsbD k = false := by
  simp only [statusByte, BitVec.getLsbD_append, BitVec.getLsbD_ofBool, BitVec.getLsbD_zero]
  refine ⟨by simp, by simp, by simp, by simp, fun k hk => ?_⟩
  have hne : k ≠ 0 ∧ k - 1 ≠ 0 ∧ k - 1 - 1 ≠ 0 ∧ k - 1 - 1 - 1 ≠ 0 := by omega
  simp [hne]

theorem bitOfAlg_eq_true {a : Alg} : bitOfAlg a = true ↔ a = .des := by cases a <;> decide

theorem bitOfDir_eq_true {d : Dir} : bitOfDir d = true ↔ d = .decrypt := by cases d <;> decide

theorem busyFlag_eq_true {s : State} : busyFlag s = true ↔ s.phase = .busy := decide_eq_true_iff

theorem doneFlag_eq_true {s : State} : doneFlag s = true ↔ s.phase = .done := decide_eq_true_iff

theorem zero_append_six_bits (x : BitVec 6) : 0#2 ++ x = x.setWidth 8 :=
  (BitVec.setWidth_eq_append (by decide)).symm

theorem traceLength_eq (a : Alg) : traceLength a = if a = .aes then 42 else 20 := by cases a <;> rfl

/-- Settles O36, from the bits of `STATUS` and the phase invariant. -/
theorem statusNstepsAndTidxRead : Obligations.StatusNstepsAndTidxRead := by
  refine ⟨fun s => ?_, rfl, fun s inv => ?_⟩
  · obtain ⟨h0, h1, h2, h3, hz⟩ := getLsbD_statusByte s
    refine ⟨_, regValue_status s, ?_⟩
    rw [h0, h1, h2, h3]
    refine ⟨busyFlag_eq_true, doneFlag_eq_true, bitOfAlg_eq_true, bitOfDir_eq_true, hz, ?_⟩
    rw [busyFlag_eq_true, doneFlag_eq_true]
    rintro ⟨hb, hd⟩
    cases hb.symm.trans hd
  · rw [regValue_nsteps, regValue_tidx, ← traceLength_eq]
    refine ⟨fun h => ?_, fun h => ?_, fun h => ⟨?_, inv.done h⟩, congrArg some (zero_append_six_bits s.TIDX)⟩ <;>
      simp [nstepsByte, h, zero_append_six_bits]

/-! ### Reset (R40) -/

theorem getElem_zeroBlock (i : Nat) (h : i < 16) : zeroBlock[i] = 0x00 := Vector.getElem_replicate h

theorem byteOf_zeroBlock (i : Nat) : byteOf zeroBlock i = 0x00 := by
  by_cases h : i < 16
  · rw [byteOf_eq _ _ h, getElem_zeroBlock i h]
  · simp [byteOf, h]

/-- The fields that R40 states, at their values. -/
structure ResetValues (s : State) : Prop where
  phase : s.phase = .idle
  pc : s.pc = 0
  ALG_L : s.ALG_L = .aes
  DIR_L : s.DIR_L = .encrypt
  TIDX : s.TIDX = 0
  MSG : s.MSG = zeroBlock
  KEY : s.KEY = zeroBlock

theorem resetValues_applyReset (s : State) : ResetValues (applyReset s) := by
  obtain ⟨hphase, hpc, hALG, hDIR, hTIDX, hMSG, hKEY⟩ := applyReset_stated s
  exact ⟨hphase, hpc, hALG, hDIR, hTIDX, hMSG, hKEY⟩

/-- The control registers and the inputs read 0x00 where the stated fields have their reset values. -/
theorem regValue_of_resetValues {s : State} (h : ResetValues s) (off : Offset) (hoff : off.toNat ≤ 0x02F) :
    regValue s off = some 0x00 := by
  have hstatus : statusByte s = 0x00 := by
    simp [statusByte, busyFlag, doneFlag, h.phase, h.ALG_L, h.DIR_L, bitOfAlg, bitOfDir]
  have hnsteps : nstepsByte s = some 0x00 := by simp [nstepsByte, h.phase]
  have htidx : tidxByte s = 0x00 := by simp [tidxByte, h.TIDX]
  have hres : ¬ (0x030 ≤ off.toNat) ∧ ¬ (0x040 ≤ off.toNat) ∧ ¬ (0x100 ≤ off.toNat) := by omega
  simp [regValue, hstatus, hnsteps, htidx, h.MSG, h.KEY, byteOf_zeroBlock, hres]

/-- Settles O41: the reset line and power-on both give the stated values, which fix the reads up to 0x02F; and every
read that looks at another field is `whenDone`. -/
theorem resetFixesControlAndInputs : Obligations.ResetFixesControlAndInputs := by
  have inputs (i : Fin 16) : zeroBlock[i] = 0x00 ∧ zeroBlock[i] = 0x00 :=
    ⟨getElem_zeroBlock i i.isLt, getElem_zeroBlock i i.isLt⟩
  refine ⟨fun s rest turn => ⟨applyReset (s.withTurns rest), step_cons turn, rfl, rfl, rfl, rfl, rfl, inputs, rfl,
    regValue_of_resetValues (resetValues_applyReset _)⟩, rfl, rfl, rfl, rfl, rfl, inputs, ?_⟩
  intro s S V RK SK TRACE OUT off hnd
  simp only [regValue, whenDone, if_neg hnd]
  rfl

end Sys2Proof.Proofs

/-! SUPPORT. The host's reads and writes of one byte, the windows a read shows, the packing of bits into bytes
(20_memory.md sections 2 and 3), and a run that the host's accesses are interleaved with. -/

namespace Sys2Proof.Proofs

open Sys2Proof Sys2Proof.Machine Sys2Proof.Claim

/-! ### Host accesses leave CORE as it was (R68, R69) -/

theorem regWrite_busy {s : State} (hb : s.phase = .busy) (off : Offset) (b : Byte) : regWrite off b s = s := if_pos hb

/-- Settles O33: the turn is taken, and the write ignored. -/
theorem writesWhileBusyAreIgnored : Obligations.WritesWhileBusyAreIgnored := by
  intro s off b rest turn hb
  refine ⟨s.withTurns rest, ?_, sameCore_env s rest s.reads s.draws, rfl, rfl, rfl⟩
  rw [step_cons turn, takeTurn, regWrite_busy (s := s.withTurns rest) hb]

/-- Settles O35, by the two cases of a read. -/
theorem readsHaveNoSideEffect : Obligations.ReadsHaveNoSideEffect := by
  intro s off rest turn
  rw [step_cons turn, takeTurn, ← regValue_withTurns s rest off]
  obtain ⟨b, hv, h⟩ | ⟨hv, h⟩ := regRead_cases off (s.withTurns rest) <;> rw [h, hv]
  · exact ⟨_, b, rfl, sameCore_env s rest (⟨off, b⟩ :: s.reads) s.draws, rfl, rfl,
      fun v hbv => ⟨Option.some.inj hbv, rfl⟩, nofun⟩
  · exact ⟨_, Config.freeByte s.draws, rfl,
      sameCore_env s rest (⟨off, Config.freeByte s.draws⟩ :: s.reads) (s.draws + 1), rfl, rfl, nofun, fun _ => ⟨rfl, rfl⟩⟩

/-- In BUSY a turn of the host, whether it reads or writes, completes and leaves CORE as it was. -/
theorem step_host_busy {s : State} {x : Turn} {rest : List Turn} (turn : s.turns = x :: rest) (hb : s.phase = .busy)
    (hseq : x ≠ .sequencer) (hreset : x ≠ .reset) : ∃ t, step s = .next t ∧ SameCore s t ∧ t.turns = rest := by
  cases x with
  | sequencer => exact absurd rfl hseq
  | reset => exact absurd rfl hreset
  | read off =>
    obtain ⟨t, -, hstep, same, hturns, -⟩ := readsHaveNoSideEffect s off rest turn
    exact ⟨t, hstep, same, hturns⟩
  | write off b =>
    obtain ⟨t, hstep, same, hturns, -⟩ := writesWhileBusyAreIgnored s off b rest turn hb
    exact ⟨t, hstep, same, hturns⟩

/-! ### The sequencer does not see the environment -/

/-- CORE's own state of `s` under the environment of `e`. -/
def withEnvOf (s e : State) : State := { s with turns := e.turns, reads := e.reads, draws := e.draws }

theorem sameCore_withEnvOf (s e : State) : SameCore s (withEnvOf s e) := sameCore_env s e.turns e.reads e.draws

theorem eq_withEnvOf_of_sameCore {s t : State} (h : SameCore s t) : t = withEnvOf s t := by
  obtain ⟨hphase, hpc, hALG, hDIR, hTIDX, hMSG, hKEY, hS, hV, hRK, hSK, hTRACE, hOUT⟩ := h
  cases s
  cases t
  subst hphase hpc hALG hDIR hTIDX hMSG hKEY hS hV hRK hSK hTRACE hOUT
  rfl

theorem sameCore_trans {s t u : State} (h : SameCore s t) (h' : SameCore t u) : SameCore s u := by
  rw [eq_withEnvOf_of_sameCore h', eq_withEnvOf_of_sameCore h]
  exact sameCore_withEnvOf s u

@[simp] theorem withEnvOf_S (s e : State) : (withEnvOf s e).S = s.S := rfl
@[simp] theorem withEnvOf_V (s e : State) : (withEnvOf s e).V = s.V := rfl
@[simp] theorem withEnvOf_MSG (s e : State) : (withEnvOf s e).MSG = s.MSG := rfl
@[simp] theorem withEnvOf_KEY (s e : State) : (withEnvOf s e).KEY = s.KEY := rfl
@[simp] theorem readRK_withEnvOf (s e : State) (k : Nat) : readRK (withEnvOf s e) k = readRK s k := rfl
@[simp] theorem readSK_withEnvOf (s e : State) (k : Nat) : readSK (withEnvOf s e) k = readSK s k := rfl
@[simp] theorem setS_withEnvOf (s e : State) (v : AesState) : (withEnvOf s e).setS v = withEnvOf (s.setS v) e := rfl
@[simp] theorem setV_withEnvOf (s e : State) (v : BitVec 64) : (withEnvOf s e).setV v = withEnvOf (s.setV v) e := rfl
@[simp] theorem setRK_withEnvOf (s e : State) (v : Vector AesState 11) :
    (withEnvOf s e).setRK v = withEnvOf (s.setRK v) e := rfl
@[simp] theorem setSK_withEnvOf (s e : State) (v : Vector (BitVec 48) 16) :
    (withEnvOf s e).setSK v = withEnvOf (s.setSK v) e := rfl

theorem recordStep_withEnvOf (s e : State) (r : StepRecord) :
    (withEnvOf s e).recordStep r = withEnvOf (s.recordStep r) e := by
  by_cases hN : (s.appendRecord r).pc.toNat = traceLength s.ALG_L
  · have last : s.recordStep r = (s.appendRecord r).finishRun r.after := if_pos hN
    rw [last]
    exact if_pos hN
  · have notLast : s.recordStep r = s.appendRecord r := if_neg hN
    rw [notLast]
    exact if_neg hN

theorem commit_withEnvOf {i : Instr} {s t : State} {r : StepRecord} (e : State) (h : commit i s r = .next t) :
    commit i (withEnvOf s e) r = .next (withEnvOf t e) := by
  obtain ⟨hw, rfl⟩ := commit_next h
  rw [commit_of_wf i _ r hw, recordStep_withEnvOf]

/-- A micro-op reads and writes nothing of the environment's (R104, R310). -/
theorem exec_micro_withEnvOf {i : Instr} {s t : State} (e : State) (hm : i.isMicro = true) (h : exec i s = .next t) :
    exec i (withEnvOf s e) = .next (withEnvOf t e) := by
  cases i with
  | startAesEnc | startDesEnc | startAesDec | startDesDec => exact Bool.noConfusion hm
  | blk2st | keyexp | addrk | subb | shrow | mixc | isubb | ishrow | imixc | dinput | dip | dround | dswap | dfp =>
    simp only [exec, execBlk2st, execKeyexp, execAddrk, execSubb, execShrow, execMixc, execIsubb, execIshrow, execImixc,
      execDinput, execDip, execDround, execDswap, execDfp, aesMicroOp, desMicroOp, withEnvOf_S, withEnvOf_V,
      withEnvOf_MSG, withEnvOf_KEY, readRK_withEnvOf, readSK_withEnvOf, setS_withEnvOf, setV_withEnvOf,
      setRK_withEnvOf, setSK_withEnvOf] at h ⊢
    exact commit_withEnvOf e h

/-- Within the program a sequencer turn goes on, and does the same to CORE under any environment. -/
theorem sequencerTurn_within {s : State} (hb : s.phase = .busy) (hlt : s.pc.toNat < traceLength s.ALG_L) :
    ∃ t, (∀ e, sequencerTurn (withEnvOf s e) = .next (withEnvOf t e)) ∧
      t.pc.toNat = s.pc.toNat + 1 ∧ t.ALG_L = s.ALG_L ∧
      (t.pc.toNat ≠ traceLength s.ALG_L → t.phase = .busy) := by
  obtain ⟨w, hf⟩ := fetch_of_lt hlt
  obtain ⟨i, hd, hw, hm, -⟩ := rom_word hf
  obtain ⟨t, ht⟩ := exec_micro_of_wf s hw hm
  obtain ⟨hpc, hALG, -, hphase⟩ := exec_micro_control hm ht
  refine ⟨t, fun e => ?_, hpc ▸ toNat_pc_succ hlt, hALG, fun hne => by rw [hphase, if_neg hne, hb]⟩
  rw [sequencerTurn_busy (s := withEnvOf s e) hb hf hd, exec_micro_withEnvOf e hm ht]

/-! ### A run with host accesses in between (R69, R310) -/

theorem runs_succ {n : Nat} {s s' t : State} (h : step s = .next s') (hr : Runs n s' t) : Runs (n + 1) s t :=
  (run_succ n s s' h).trans hr

/-- The turns `l` stay within the run that `s` is in: no reset, BUSY until they are all taken, a sequencer turn last,
and no more of those than micro-ops are left. -/
structure WithinRun (l : List Turn) (s : State) : Prop where
  noReset : ∀ x ∈ l, x ≠ .reset
  busy : l ≠ [] → s.phase = .busy
  last : l ≠ [] → l.getLast? = some .sequencer
  fits : s.pc.toNat + l.count .sequencer ≤ traceLength s.ALG_L

theorem WithinRun.count_pos {l : List Turn} {s : State} (h : WithinRun l s) (hl : l ≠ []) :
    0 < l.count .sequencer :=
  List.count_pos_iff.2 (List.mem_of_getLast? (h.last hl))

theorem WithinRun.pc_lt {l : List Turn} {s : State} (h : WithinRun l s) (hl : l ≠ []) :
    s.pc.toNat < traceLength s.ALG_L :=
  Nat.lt_of_lt_of_le (Nat.lt_add_of_pos_right (h.count_pos hl)) h.fits

/-- The turns left after one that keeps the machine BUSY wherever a sequencer turn is still to come. -/
theorem WithinRun.tail {x : Turn} {l : List Turn} {s t : State} (h : WithinRun (x :: l) s)
    (fits : t.pc.toNat + l.count .sequencer ≤ traceLength t.ALG_L)
    (busy : 0 < l.count .sequencer → t.phase = .busy) : WithinRun l t := by
  have last (hl : l ≠ []) : l.getLast? = some .sequencer := by
    obtain ⟨y, ys, rfl⟩ := List.exists_cons_of_ne_nil hl
    exact List.getLast?_cons_cons.symm.trans (h.last (List.cons_ne_nil _ _))
  exact ⟨fun y hy => h.noReset y (List.mem_cons_of_mem x hy),
    fun hl => busy (List.count_pos_iff.2 (List.mem_of_getLast? (last hl))), last, fits⟩

theorem WithinRun.tail_host {x : Turn} {l : List Turn} {s : State} (h : WithinRun (x :: l) s)
    (hseq : x ≠ .sequencer) : WithinRun l s :=
  h.tail (List.count_cons_of_ne hseq ▸ h.fits) fun _ => h.busy (List.cons_ne_nil _ _)

theorem WithinRun.tail_sequencer {l : List Turn} {s t : State} (h : WithinRun (.sequencer :: l) s)
    (hpc : t.pc.toNat = s.pc.toNat + 1) (hALG : t.ALG_L = s.ALG_L)
    (hbusy : t.pc.toNat ≠ traceLength s.ALG_L → t.phase = .busy) : WithinRun l t := by
  have fits := h.fits
  rw [List.count_cons_self] at fits
  exact h.tail (by rw [hALG]; omega) fun _ => hbusy (by omega)

/-- The two machines in lockstep: a host access moves the interleaved one alone and leaves CORE as it was, a sequencer
turn moves both in the same way. -/
theorem interleaved_run {l : List Turn} : ∀ {s u : State}, s.turns = l → u.turns = [] → SameCore u s → WithinRun l u →
    ∃ t v, Runs l.length s t ∧ Runs (l.count .sequencer) u v ∧ SameCore v t := by
  induction l with
  | nil => exact fun {s u} _ _ same _ => ⟨s, u, rfl, rfl, same⟩
  | cons x l ih =>
    intro s u hs hu same within
    have hb : u.phase = .busy := within.busy (List.cons_ne_nil x l)
    by_cases hx : x = .sequencer
    · subst hx
      obtain ⟨v, hturn, hpc, hALG, hbusy⟩ := sequencerTurn_within hb (within.pc_lt (List.cons_ne_nil _ l))
      have hstepS : step s = .next (withEnvOf v (s.withTurns l)) := by
        rw [step_cons hs, eq_withEnvOf_of_sameCore same]
        exact hturn (s.withTurns l)
      have hstepU : step u = .next (withEnvOf v u) := (step_nil hu).trans (hturn u)
      obtain ⟨t, w, ht, hw, hsame⟩ := ih (s := withEnvOf v (s.withTurns l)) (u := withEnvOf v u) rfl hu
        (sameCore_withEnvOf (withEnvOf v u) (s.withTurns l)) (within.tail_sequencer hpc hALG hbusy)
      rw [List.count_cons_self]
      exact ⟨t, w, runs_succ hstepS ht, runs_succ hstepU hw, hsame⟩
    · obtain ⟨s', hstep, same', hs'⟩ :=
        step_host_busy hs (same.phase.trans hb) hx (within.noReset x (List.mem_cons_self ..))
      obtain ⟨t, v, ht, hv, hsame⟩ := ih hs' hu (sameCore_trans same same') (within.tail_host hx)
      rw [List.count_cons_of_ne hx]
      exact ⟨t, v, runs_succ hstep ht, hv, hsame⟩

/-- Settles O55, by running the two machines in lockstep from the same CORE. -/
theorem hostAccessesDoNotDisturbARun : Obligations.HostAccessesDoNotDisturbARun := by
  intro s l n _ hb hreset hn hfits hlast
  subst hn
  exact interleaved_run rfl rfl (sameCore_env _ _ s.reads s.draws) ⟨hreset, fun _ => hb, fun _ => hlast, hfits⟩

/-! ### What a read returns, range by range (R70, R71) -/

theorem byteOf_fin (b : Block) (i : Fin 16) : byteOf b i.val = b[i] := byteOf_eq b i.val i.isLt

theorem whenDone_done {s : State} (h : s.phase = .done) (b : Byte) : whenDone s b = some b := if_pos h

theorem whenDone_eq_none {s : State} {b : Byte} : whenDone s b = none ↔ s.phase ≠ .done := by simp [whenDone]

theorem nstepsByte_eq_none {s : State} : nstepsByte s = none ↔ s.phase = .busy := by
  cases h : s.phase <;> simp [nstepsByte, h]

section
variable (s : State) {off : Offset}

theorem regValue_reserved (h : (0x004 ≤ off.toNat ∧ off.toNat ≤ 0x00F) ∨ (0x0A0 ≤ off.toNat ∧ off.toNat ≤ 0x0FF) ∨
    0x1B0 ≤ off.toNat) : regValue s off = some 0x00 := by
  simp (disch := omega) only [regValue, if_neg]

theorem regValue_msg (lo : 0x010 ≤ off.toNat) (hi : off.toNat ≤ 0x01F) :
    regValue s off = some (byteOf s.MSG (off.toNat - 0x010)) := by
  simp (disch := omega) only [regValue, if_neg, if_pos]

theorem regValue_key (lo : 0x020 ≤ off.toNat) (hi : off.toNat ≤ 0x02F) :
    regValue s off = some (byteOf s.KEY (off.toNat - 0x020)) := by
  simp (disch := omega) only [regValue, if_neg, if_pos]

theorem regValue_out (lo : 0x030 ≤ off.toNat) (hi : off.toNat ≤ 0x03F) :
    regValue s off = whenDone s (byteOf s.OUT (off.toNat - 0x030)) := by
  simp (disch := omega) only [regValue, if_neg, if_pos]

theorem regValue_traceWindow (lo : 0x040 ≤ off.toNat) (hi : off.toNat ≤ 0x09F) :
    regValue s off = whenDone s (traceWindow s off.toNat) := by
  simp (disch := omega) only [regValue, if_neg, if_pos]

theorem regValue_keyWindow (lo : 0x100 ≤ off.toNat) (hi : off.toNat ≤ 0x1AF) :
    regValue s off = whenDone s (keyWindow s off.toNat) := by
  simp (disch := omega) only [regValue, if_neg, if_pos]

end

/-- The offsets of `OUT` and the two windows: the results, which a read shows in DONE only (R70). -/
def IsResult (off : Offset) : Prop :=
  (0x030 ≤ off.toNat ∧ off.toNat ≤ 0x09F) ∨ (0x100 ≤ off.toNat ∧ off.toNat ≤ 0x1AF)

/-- Where R70 leaves the byte that a read returns open: `NSTEPS` in BUSY, and the results outside DONE. -/
def IsUnspecified (s : State) (off : Offset) : Prop :=
  (off.toNat = 0x002 ∧ s.phase = .busy) ∨ (s.phase ≠ .done ∧ IsResult off)

theorem regValue_eq_none (s : State) (off : Offset) : regValue s off = none ↔ IsUnspecified s off := by
  have defined (hn : off.toNat ≠ 0x002) (hr : ¬ IsResult off) : False ↔ IsUnspecified s off := by
    simp [IsUnspecified, hn, hr]
  have result (b : Byte) (hn : off.toNat ≠ 0x002) (hr : IsResult off) :
      whenDone s b = none ↔ IsUnspecified s off := by
    simp [IsUnspecified, hn, hr, whenDone_eq_none]
  unfold IsResult at *
  simp only [regValue]
  split_ifs with _ _ nsteps
  · exact defined (by omega) (by omega)
  · exact defined (by omega) (by omega)
  · simp [IsUnspecified, IsResult, nsteps, nstepsByte_eq_none]
  · exact defined (by omega) (by omega)
  · exact defined (by omega) (by omega)
  · exact defined (by omega) (by omega)
  · exact result _ (by omega) (by omega)
  · exact result _ (by omega) (by omega)
  · exact result _ (by omega) (by omega)
  · exact defined (by omega) (by omega)

/-- Settles O37, from the value of a read in each range of offsets. -/
theorem resultReadsNeedDone : Obligations.ResultReadsNeedDone := by
  refine fun s off => ⟨regValue_eq_none s off, regValue_reserved s, fun i => ⟨fun h => ?_, fun h => ?_, fun h hd => ?_⟩⟩
  · rw [regValue_msg s (by omega) (by omega), h, Nat.add_sub_cancel_left, byteOf_fin]
  · rw [regValue_key s (by omega) (by omega), h, Nat.add_sub_cancel_left, byteOf_fin]
  · rw [regValue_out s (by omega) (by omega), whenDone_done hd, h, Nat.add_sub_cancel_left, byteOf_fin]

/-! ### The trace window (R72) -/

section
variable (r : StepRecord) {o i : Nat}

theorem windowByte_before (h : i < 16) (ho : o = 0x050 + i) : windowByte r o = r.before[i] := by
  simp (disch := omega) only [windowByte, if_neg, if_pos, ho, Nat.add_sub_cancel_left, byteOf_eq _ _ h]

theorem windowByte_after (h : i < 16) (ho : o = 0x060 + i) : windowByte r o = r.after[i] := by
  simp (disch := omega) only [windowByte, if_neg, if_pos, ho, Nat.add_sub_cancel_left, byteOf_eq _ _ h]

theorem windowByte_aux_rk (h : i < 16) (ho : o = 0x070 + i) : windowByte r o = r.aux_rk[i] := by
  simp (disch := omega) only [windowByte, if_neg, if_pos, ho, Nat.add_sub_cancel_left, byteOf_eq _ _ h]

theorem windowByte_aux_sk (h : i < 6) (ho : o = 0x048 + i) : windowByte r o = packedByte r.aux_sk i := by
  simp (disch := omega) only [windowByte, if_neg, if_pos, ho, Nat.add_sub_cancel_left]

theorem windowByte_aux_e (h : i < 6) (ho : o = 0x080 + i) : windowByte r o = packedByte r.aux_e i := by
  simp (disch := omega) only [windowByte, if_neg, if_pos, ho, Nat.add_sub_cancel_left]

theorem windowByte_aux_x (h : i < 6) (ho : o = 0x088 + i) : windowByte r o = packedByte r.aux_x i := by
  simp (disch := omega) only [windowByte, if_neg, if_pos, ho, Nat.add_sub_cancel_left]

theorem windowByte_aux_sb (h : i < 4) (ho : o = 0x090 + i) : windowByte r o = packedByte r.aux_sb i := by
  simp (disch := omega) only [windowByte, if_neg, if_pos, ho, Nat.add_sub_cancel_left]

theorem windowByte_aux_f (h : i < 4) (ho : o = 0x094 + i) : windowByte r o = packedByte r.aux_f i := by
  simp (disch := omega) only [windowByte, if_neg, if_pos, ho, Nat.add_sub_cancel_left]

theorem windowByte_zero (h : (0x042 ≤ o ∧ o ≤ 0x047) ∨ (0x04E ≤ o ∧ o ≤ 0x04F) ∨ (0x086 ≤ o ∧ o ≤ 0x087) ∨
    (0x08E ≤ o ∧ o ≤ 0x08F) ∨ 0x098 ≤ o) : windowByte r o = 0x00 := by
  simp (disch := omega) only [windowByte, if_neg]

end

theorem traceWindow_beyond {s : State} (h : s.pc.toNat ≤ s.TIDX.toNat) (o : Nat) : traceWindow s o = 0x00 := if_pos h

theorem traceWindow_shown {s : State} (h : s.TIDX.toNat < 42) (hlt : s.TIDX.toNat < s.pc.toNat) (o : Nat) :
    traceWindow s o = windowByte s.TRACE[s.TIDX.toNat] o := by
  rw [traceWindow, if_neg (show ¬ s.pc ≤ s.TIDX from Nat.not_le.2 hlt), readTRACE,
    Vector.getElem?_eq_getElem h, Option.getD_some]

/-- Settles O38: a read in the window shows `windowByte` of the record at `TIDX`, which the lemmas above give field by
field. -/
theorem traceWindowLayout : Obligations.TraceWindowLayout := by
  intro s off hd lo hi
  rw [regValue_traceWindow s lo hi, whenDone_done hd]
  refine ⟨fun h => congrArg some (traceWindow_beyond h _), fun h hlt => ?_⟩
  rw [traceWindow_shown h hlt]
  generalize s.TRACE[s.TIDX.toNat] = r
  refine ⟨fun ho => ho ▸ rfl, fun ho => ho ▸ rfl, fun i => ⟨fun ho => ?_, fun ho => ?_, fun ho => ?_⟩,
    fun i => ⟨fun ho => ?_, fun ho => ?_, fun ho => ?_⟩, fun i => ⟨fun ho => ?_, fun ho => ?_⟩, fun ho => ?_⟩ <;>
    apply congrArg some
  · exact windowByte_aux_sk r i.isLt ho
  · exact windowByte_aux_e r i.isLt ho
  · exact windowByte_aux_x r i.isLt ho
  · exact windowByte_before r i.isLt ho
  · exact windowByte_after r i.isLt ho
  · exact windowByte_aux_rk r i.isLt ho
  · exact windowByte_aux_sb r i.isLt ho
  · exact windowByte_aux_f r i.isLt ho
  · exact windowByte_zero r ho

/-! ### The key-schedule window (R73) -/

theorem readRK_eq (s : State) (k : Fin 11) : readRK s k.val = s.RK[k] := by simp [readRK]

theorem readSK_eq (s : State) (k : Fin 16) : readSK s k.val = s.SK[k] := by simp [readSK]

theorem keyWindow_aes {s : State} (ha : s.ALG_L = .aes) {k i : Nat} (hi : i < 16) :
    keyWindow s (0x100 + 16 * k + i) = byteOf (stateToBlock (readRK s k)) i := by
  have hdiv : (0x100 + 16 * k + i - 0x100) / 16 = k := by omega
  have hmod : (0x100 + 16 * k + i - 0x100) % 16 = i := by omega
  simp only [keyWindow, ha, hdiv, hmod]

theorem keyWindow_des {s : State} (ha : s.ALG_L = .des) {k j : Nat} (hk : k < 16) (hj : j < 8) :
    keyWindow s (0x100 + 8 * k + j) = if j < 6 then packedByte (readSK s k) j else 0x00 := by
  have hdiv : (0x100 + 8 * k + j - 0x100) / 8 = k := by omega
  have hmod : (0x100 + 8 * k + j - 0x100) % 8 = j := by omega
  have hin : 0x100 + 8 * k + j < 0x180 := by omega
  simp only [keyWindow, ha, hdiv, hmod, hin, true_and]

theorem keyWindow_des_beyond {s : State} (ha : s.ALG_L = .des) {o : Nat} (h : 0x180 ≤ o) : keyWindow s o = 0x00 := by
  simp only [keyWindow, ha]
  exact if_neg fun hin => absurd hin.1 (Nat.not_lt.2 h)

/-- Settles O39, from the three ranges of the window. -/
theorem keyScheduleWindowLayout : Obligations.KeyScheduleWindowLayout := by
  refine fun s off hd => ⟨fun ha k i ho => ?_, fun ha => ⟨fun k j ho => ?_, fun lo hi => ?_⟩⟩
  · rw [regValue_keyWindow s (by omega) (by omega), whenDone_done hd, ho, keyWindow_aes ha i.isLt, byteOf_fin,
      readRK_eq]
  · rw [regValue_keyWindow s (by omega) (by omega), whenDone_done hd, ho, keyWindow_des ha k.isLt j.isLt, readSK_eq]
  · rw [regValue_keyWindow s (by omega) hi, whenDone_done hd, keyWindow_des_beyond ha lo]

/-! ### Packing bits into bytes, most significant bit first (R64) -/

theorem bitAt_append_left {n m : Nat} (x : BitVec n) (y : BitVec m) {p : Nat} (h1 : 1 ≤ p) (h : p ≤ n) :
    bitAt (x ++ y) p = bitAt x p := by
  have hlt : ¬ n ≤ p - 1 := by omega
  simp [bitAt, BitVec.getMsbD_append, hlt]

theorem bitAt_append_right {n m : Nat} (x : BitVec n) (y : BitVec m) {p : Nat} (h1 : 1 ≤ p) :
    bitAt (x ++ y) (n + p) = bitAt y p := by
  have hle : n ≤ n + p - 1 := by omega
  have hsub : n + p - 1 - n = p - 1 := by omega
  simp [bitAt, BitVec.getMsbD_append, hle, hsub]

theorem bitAt_byte (b : Byte) {k : Nat} (hk : k < 8) : bitAt b (k + 1) = b.getLsbD (7 - k) := by
  simp [bitAt, BitVec.getMsbD_eq_getLsbD, hk]

/-- Each position of the vector lies in one of its eight bytes: the appends before it are passed one by one. -/
theorem bitAt_bitsOf8 (B : Block) {i k : Nat} (hi : i < 8) (hk : k < 8) :
    bitAt (bitsOf8 B) (8 * i + k + 1) = (byteOf B i).getLsbD (7 - k) := by
  rw [← bitAt_byte _ hk, bitsOf8]
  interval_cases i <;>
    simp (disch := omega) only [bitAt_append_left, bitAt_append_right, Nat.add_assoc, Nat.mul_zero, Nat.zero_add]

theorem getLsbD_packedByte_eq_bitAt {n m : Nat} (V : BitVec n) {i k : Nat} (hn : n = 8 * m) (hi : i < m) (hk : k < 8) :
    (packedByte V i).getLsbD (7 - k) = bitAt V (8 * i + k + 1) := by
  have hlt : 7 - k < 8 := by omega
  have hin : 8 * i + k < n := by omega
  have hpos : n - 8 * (i + 1) + (7 - k) = n - 1 - (8 * i + k) := by omega
  rw [getLsbD_packedByte, hpos, bitAt, BitVec.getMsbD_eq_getLsbD, Nat.add_sub_cancel, decide_eq_true hlt,
    decide_eq_true hin]

theorem packedByte_bitsOf8 (B : Block) {i : Nat} (hi : i < 8) : packedByte (bitsOf8 B) i = byteOf B i := by
  apply bits_ext
  intro p h1 hp
  obtain ⟨k, rfl⟩ := Nat.exists_eq_add_of_le' h1
  rw [bitAt_byte _ (by omega), bitAt_byte _ (by omega), getLsbD_packedByte_eq_bitAt (m := 8) _ rfl hi (by omega),
    bitAt_bitsOf8 B hi (by omega)]

theorem byteOf_desImage (V : BitVec 64) {i : Nat} (hi : i < 8) : byteOf (desImage V) i = packedByte V i := by
  rw [byteOf_eq _ _ (by omega), desImage, getElem_buildBlock _ _ (by omega), if_pos hi]

/-- Packing 64 bits and unpacking them gives them back. -/
theorem bitsOf8_desImage (V : BitVec 64) : bitsOf8 (desImage V) = V := by
  apply bits_ext
  intro p h1 hp
  have hi : (p - 1) / 8 < 8 := by omega
  have hk : (p - 1) % 8 < 8 := by omega
  have hsplit : p = 8 * ((p - 1) / 8) + (p - 1) % 8 + 1 := by omega
  rw [hsplit, bitAt_bitsOf8 _ hi hk, byteOf_desImage V hi, getLsbD_packedByte_eq_bitAt (m := 8) V rfl hi hk]

/-- Unpacking a Block and packing the bits gives its bytes 0..7, with zero in bytes 8..15. -/
theorem desImage_bitsOf8 (B : Block) : desImage (bitsOf8 B) = lowBytes B := by
  apply block_ext
  intro i
  simp only [desImage, lowBytes, Fin.getElem_fin, getElem_buildBlock]
  split
  next hi => rw [packedByte_bitsOf8 B hi, byteOf_eq _ _ i.isLt]
  next => rfl

/-- Settles O40, from the position of each bit in both directions. -/
theorem desPackingIsMsbFirst : Obligations.DesPackingIsMsbFirst :=
  ⟨fun B _ _ => bitAt_bitsOf8 B, fun _ _ V _ _ => getLsbD_packedByte_eq_bitAt V, bitsOf8_desImage, desImage_bitsOf8⟩

end Sys2Proof.Proofs

/-! SUPPORT. Decoding and encoding of micro-op words as inverse maps (30_encoding.md sections 1 and 2); from them which
words are legal, what is refused, the four micro-programs, and the instruction that a step runs. -/

namespace Sys2Proof.Proofs

open Sys2Proof Sys2Proof.Machine Sys2Proof.Claim

/-! ### The fields of a micro-op word (R90) -/

@[simp] theorem algOfBit_bitOfAlg (a : Alg) : algOfBit (bitOfAlg a) = a := by cases a <;> rfl

@[simp] theorem dirOfBit_bitOfDir (d : Dir) : dirOfBit (bitOfDir d) = d := by cases d <;> rfl

@[simp] theorem bitOfAlg_algOfBit (b : Bool) : bitOfAlg (algOfBit b) = b := by cases b <;> rfl

@[simp] theorem bitOfDir_dirOfBit (b : Bool) : bitOfDir (dirOfBit b) = b := by cases b <;> rfl

/-- Each field of a packed word reads back. -/
theorem packU_fields (a : Alg) (d : Dir) (op : BitVec 4) (round : BitVec 5) :
    (packU a d op round).getLsbD 15 = bitOfAlg a ∧ (packU a d op round).getLsbD 14 = bitOfDir d ∧
    (packU a d op round).extractLsb' 8 4 = op ∧ (packU a d op round).extractLsb' 0 5 = round := by
  refine ⟨?_, ?_, ?_, BitVec.extractLsb'_append_eq_right⟩
  · simp only [packU, BitVec.getLsbD_append]
    simp
  · simp only [packU, BitVec.getLsbD_append]
    simp
  · rw [packU, BitVec.extractLsb'_append_eq_of_le (by decide), BitVec.extractLsb'_append_eq_of_le (by decide)]
    exact BitVec.extractLsb'_append_eq_right

theorem ofBool_getLsbD (w : UWord) (k : Nat) : BitVec.ofBool (w.getLsbD k) = w.extractLsb' k 1 := by
  ext i hi
  obtain rfl : i = 0 := by omega
  simp

/-- A word whose must-be-zero bits are zero is packed from its own fields. -/
theorem packU_of_fields {w : UWord} (hz : w.extractLsb' 12 2 = 0#2 ∧ w.extractLsb' 5 3 = 0#3) :
    packU (algOfBit (w.getLsbD 15)) (dirOfBit (w.getLsbD 14)) (w.extractLsb' 8 4) (w.extractLsb' 0 5) = w := by
  simp only [packU, bitOfAlg_algOfBit, bitOfDir_dirOfBit, ofBool_getLsbD, ← hz.1, ← hz.2]
  simp only [BitVec.extractLsb'_append_extractLsb'_eq_extractLsb', BitVec.extractLsb'_eq_self]

/-! ### Decoding an encoded micro-op -/

/-- The decoder of an algorithm's operation codes (R91). -/
def decodeOp : Alg → Dir → Nat → BitVec 5 → Except DecodeError Instr
  | .aes => decodeAesOp
  | .des => decodeDesOp

/-- With the must-be-zero bits zero, only the operation code is left to decode. -/
theorem decodeU_of_zero_fields {w : UWord} (hz : w.extractLsb' 12 2 = 0#2 ∧ w.extractLsb' 5 3 = 0#3) :
    decodeU w = decodeOp (algOfBit (w.getLsbD 15)) (dirOfBit (w.getLsbD 14)) (w.extractLsb' 8 4).toNat
      (w.extractLsb' 0 5) := by
  rw [decodeU, if_pos hz]
  cases algOfBit (w.getLsbD 15) <;> rfl

theorem decodeU_packU (a : Alg) (d : Dir) (op : BitVec 4) (round : BitVec 5) :
    decodeU (packU a d op round) = decodeOp a d op.toNat round := by
  obtain ⟨ha, hd, hop, hround⟩ := packU_fields a d op round
  rw [decodeU_of_zero_fields (Laws.packU_zero_fields a d op round), ha, hd, hop, hround, algOfBit_bitOfAlg,
    dirOfBit_bitOfDir]

/-- The word of a micro-op decodes to it exactly when its round is in range. -/
theorem decodeU_uopOf {i : Instr} (hm : i.isMicro = true) : decodeU (uopOf i) = ifLegal i := by
  cases i with
  | startAesEnc | startDesEnc | startAesDec | startDesDec => exact Bool.noConfusion hm
  | blk2st | keyexp | addrk | subb | shrow | mixc | isubb | ishrow | imixc | dinput | dip | dround | dswap | dfp =>
    exact decodeU_packU _ _ _ _

/-! ### Encoding a decoded micro-op -/

theorem ifLegal_ok {i j : Instr} (h : ifLegal i = .ok j) : i.wf = true ∧ i = j := by
  unfold ifLegal at h
  split at h
  · exact ⟨‹_›, Except.ok.inj h⟩
  · cases h

theorem ifRoundZero_ok {round : BitVec 5} {i j : Instr} (h : ifRoundZero round i = .ok j) : round = 0 ∧ i = j := by
  unfold ifRoundZero at h
  split at h
  · exact ⟨‹_›, Except.ok.inj h⟩
  · cases h

theorem ifDir_ok {want dir : Dir} {i j : Instr} (h : ifDir want dir i = .ok j) :
    dir = want ∧ i.wf = true ∧ i = j := by
  unfold ifDir at h
  split at h
  · exact ⟨‹_›, ifLegal_ok h⟩
  · cases h

/-- `i` is a legal micro-op and `w` its word. -/
structure IsMicroOpOf (i : Instr) (w : UWord) : Prop where
  wf : i.wf = true
  isMicro : i.isMicro = true
  word : encode i = .u w

theorem decodeAesOp_ok {d : Dir} {op : Nat} {round : BitVec 5} {i : Instr} (h : decodeAesOp d op round = .ok i) :
    IsMicroOpOf i (packU .aes d (BitVec.ofNat 4 op) round) := by
  unfold decodeAesOp at h
  split at h
  case h_1 | h_2 => obtain ⟨rfl, rfl⟩ := ifRoundZero_ok h; exact ⟨rfl, rfl, rfl⟩
  case h_3 => obtain ⟨hw, rfl⟩ := ifLegal_ok h; exact ⟨hw, rfl, rfl⟩
  case h_4 | h_5 | h_6 | h_7 | h_8 | h_9 => obtain ⟨rfl, hw, rfl⟩ := ifDir_ok h; exact ⟨hw, rfl, rfl⟩
  case h_10 => cases h

theorem decodeDesOp_ok {d : Dir} {op : Nat} {round : BitVec 5} {i : Instr} (h : decodeDesOp d op round = .ok i) :
    IsMicroOpOf i (packU .des d (BitVec.ofNat 4 op) round) := by
  unfold decodeDesOp at h
  split at h
  case h_1 | h_2 | h_4 | h_5 => obtain ⟨rfl, rfl⟩ := ifRoundZero_ok h; exact ⟨rfl, rfl, rfl⟩
  case h_3 => obtain ⟨hw, rfl⟩ := ifLegal_ok h; exact ⟨hw, rfl, rfl⟩
  case h_6 => cases h

theorem decodeOp_ok {a : Alg} {d : Dir} {op : BitVec 4} {round : BitVec 5} {i : Instr}
    (h : decodeOp a d op.toNat round = .ok i) : IsMicroOpOf i (packU a d op round) := by
  have hop : BitVec.ofNat 4 op.toNat = op := (BitVec.ofNat_toNat 4 op).trans (BitVec.setWidth_eq op)
  cases a with
  | aes => exact hop ▸ decodeAesOp_ok h
  | des => exact hop ▸ decodeDesOp_ok h

/-- A word that decodes is the word of the legal micro-op it decodes to. -/
theorem decodeU_ok {w : UWord} {i : Instr} (h : decodeU w = .ok i) : IsMicroOpOf i w := by
  by_cases hz : w.extractLsb' 12 2 = 0#2 ∧ w.extractLsb' 5 3 = 0#3
  · rw [decodeU_of_zero_fields hz] at h
    exact packU_of_fields hz ▸ decodeOp_ok h
  · rw [decodeU, if_neg hz] at h
    cases h

/-! ### The legal words (R95) -/

/-- Every legal micro-op's word stands in a micro-program: in each algorithm and direction the rounds of R95 are those
of the program. -/
theorem uopOf_mem_rom {i : Instr} (hw : i.wf = true) (hm : i.isMicro = true) : ∃ a d, uopOf i ∈ rom a d := by
  cases i with
  | startAesEnc | startDesEnc | startAesDec | startDesDec => exact Bool.noConfusion hm
  | blk2st d | keyexp d => exact ⟨.aes, d, by cases d <;> decide⟩
  | dinput d | dip d | dswap d | dfp d => exact ⟨.des, d, by cases d <;> decide⟩
  | addrk d round =>
    refine ⟨.aes, d, ?_⟩
    revert round
    cases d <;> decide +kernel
  | dround d round =>
    refine ⟨.des, d, ?_⟩
    revert round
    cases d <;> decide +kernel
  | subb round | shrow round | mixc round =>
    refine ⟨.aes, .encrypt, ?_⟩
    revert round
    decide +kernel
  | isubb round | ishrow round | imixc round =>
    refine ⟨.aes, .decrypt, ?_⟩
    revert round
    decide +kernel

theorem decodeU_isOk_iff_mem_rom (w : UWord) : (∃ i, decodeU w = .ok i) ↔ ∃ a d, w ∈ rom a d := by
  constructor
  · rintro ⟨i, hi⟩
    obtain ⟨hw, hm, he⟩ := decodeU_ok hi
    have hu : uopOf i = w := by rw [uopOf, he]
    exact hu ▸ uopOf_mem_rom hw hm
  · rintro ⟨a, d, hmem⟩
    obtain ⟨j, hj⟩ := List.mem_iff_getElem?.1 hmem
    obtain ⟨i, hi, -⟩ := rom_word hj
    exact ⟨i, hi⟩

/-- Bit 14 of every word of a micro-program names the program's direction (R90). -/
theorem dir_of_mem_rom {a : Alg} {d : Dir} {w : UWord} (h : w ∈ rom a d) : w.getLsbD 14 = bitOfDir d := by
  have hall : ((rom a d).all fun w => w.getLsbD 14 == bitOfDir d) = true := by cases a <;> cases d <;> decide
  exact eq_of_beq (List.all_eq_true.1 hall w h)

theorem rom_dir_unique {a : Alg} {d d' : Dir} {w : UWord} (h : w ∈ rom a d) (h' : w ∈ rom a d') : d = d' := by
  have hbit : bitOfDir d = bitOfDir d' := (dir_of_mem_rom h).symm.trans (dir_of_mem_rom h')
  simpa using congrArg dirOfBit hbit

theorem nodup_rom (a : Alg) (d : Dir) : (rom a d).Nodup := by
  cases a <;> cases d <;> decide +kernel

/-- The words of both directions of an algorithm are distinct. -/
theorem nodup_rom_append (a : Alg) : (rom a .encrypt ++ rom a .decrypt).Nodup :=
  (nodup_rom a .encrypt).append (nodup_rom a .decrypt) fun _ h h' => nomatch rom_dir_unique h h'

theorem length_rom_append (a : Alg) : (rom a .encrypt ++ rom a .decrypt).length = traceLength a + traceLength a := by
  rw [List.length_append, length_rom, length_rom]

theorem roundIn_iff {lo hi : Nat} {round : BitVec 5} :
    roundIn lo hi round = true ↔ lo ≤ round.toNat ∧ round.toNat ≤ hi := by
  simp [roundIn]

theorem addrkKidx_le {d : Dir} {round : BitVec 5} (h : (Instr.addrk d round).wf = true) : addrkKidx d round ≤ 10 := by
  obtain ⟨-, hhi⟩ := roundIn_iff.1 h
  cases d with
  | encrypt => exact hhi
  | decrypt => exact Nat.sub_le _ _

theorem droundKidx_le {d : Dir} {round : BitVec 5} (h : (Instr.dround d round).wf = true) :
    droundKidx d round ≤ 15 := by
  obtain ⟨hlo, hhi⟩ := roundIn_iff.1 h
  cases d with
  | encrypt => exact Nat.sub_le_sub_right hhi 1
  | decrypt => exact Nat.sub_le_sub_left hlo 16

/-- Settles O17: decoding and encoding are inverse, so the words that decode are those of the legal micro-ops; bit 14
keeps the two directions apart. -/
theorem legalWordsAreTheMicroPrograms : Obligations.LegalWordsAreTheMicroPrograms :=
  ⟨decodeU_isOk_iff_mem_rom, nodup_rom_append .aes, length_rom_append .aes, nodup_rom_append .des,
    length_rom_append .des, fun _ _ _ _ => rom_dir_unique, fun _ _ => addrkKidx_le, fun _ _ => droundKidx_le⟩

/-! ### Refusal of the reserved words (R97) -/

/-- Every micro-op ends in `commit` under its own name. -/
theorem exec_micro_eq_commit {i : Instr} (hm : i.isMicro = true) (s : State) : ∃ s' r, exec i s = commit i s' r := by
  cases i with
  | startAesEnc | startDesEnc | startAesDec | startDesDec => exact Bool.noConfusion hm
  | blk2st | keyexp | addrk | subb | shrow | mixc | isubb | ishrow | imixc | dinput | dip | dround | dswap | dfp =>
    exact ⟨_, _, rfl⟩

/-- Only a micro-op can be ill formed: a command has no range to check. -/
theorem isMicro_of_not_wf {i : Instr} (h : i.wf = false) : i.isMicro = true := by
  cases i with
  | startAesEnc | startDesEnc | startAesDec | startDesDec => exact Bool.noConfusion h
  | blk2st | keyexp | addrk | subb | shrow | mixc | isubb | ishrow | imixc | dinput | dip | dround | dswap | dfp => rfl

/-- Settles O30, by the check in `commit` and the same check in the decoder. -/
theorem illFormedMicroOpsAreRefused : Obligations.IllFormedMicroOpsAreRefused := by
  intro i s hw
  have hm := isMicro_of_not_wf hw
  obtain ⟨s', r, hexec⟩ := exec_micro_eq_commit hm s
  refine ⟨hexec.trans (commit_of_not_wf i s' r hw), ?_⟩
  rw [decodeU_uopOf hm, ifLegal, hw]
  rfl

/-! ### The micro-programs in full (R100 to R103) -/

/-- Settles O19: the loops over the rounds, written out. -/
theorem microProgramsInFull : Obligations.MicroProgramsInFull :=
  ⟨rfl, rfl, rfl, rfl⟩

/-! ### The step (R104, R240, R302) -/

/-- Settles O42, from the sequencer's turn in and outside BUSY and the host's write of a command. -/
theorem stepRunsTheDecodedInstruction : Obligations.StepRunsTheDecodedInstruction := by
  refine ⟨fun s w i turn hb hf hd => ?_, fun s rest w i turn hb hf hd => ?_, fun s rest b i turn hd => ?_,
    fun s hb => ⟨fun turn => ?_, fun rest turn => ?_⟩⟩
  · rw [step_nil turn, sequencerTurn_busy hb hf hd]
  · rw [step_cons turn, takeTurn]
    exact sequencerTurn_busy (s := s.withTurns rest) hb hf hd
  · rw [step_cons turn, takeTurn]
    exact (regWrite_command hd).symm
  · rw [step_nil turn, sequencerTurn_not_busy hb]
  · rw [step_cons turn, takeTurn]
    exact sequencerTurn_not_busy (s := s.withTurns rest) hb

end Sys2Proof.Proofs

/-! SUPPORT. The arithmetic of GF(2^8) (40_gf_arithmetic.md): `gmul` as the sum of the doublings that the bits of its
second operand select; from that, additivity in both operands and the field laws. -/

namespace Sys2Proof.Proofs

open Sys2Proof Sys2Proof.Machine Sys2Proof.Claim

/-! ### Doubling (R121) -/

theorem toNat_xtime (a : Byte) :
    (xtime a).toNat = (a.toNat * 2 % 256) ^^^ (if a.getLsbD 7 then 0x1B else 0x00) := by
  rw [xtime, BitVec.toNat_xor, BitVec.toNat_shiftLeft, Nat.shiftLeft_eq]
  split <;> rfl

@[simp] theorem xtime_zero : xtime 0#8 = 0#8 := rfl

@[simp] theorem iterate_xtime_zero (n : Nat) : xtime^[n] 0#8 = 0#8 := Function.iterate_fixed xtime_zero n

/-- Doubling is additive, since the reduction depends on one bit only. -/
theorem xtime_xor (a b : Byte) : xtime (a ^^^ b) = xtime a ^^^ xtime b := by
  have hreduce : (if (a ^^^ b).getLsbD 7 then 0x1B#8 else 0x00#8) =
      (if a.getLsbD 7 then 0x1B#8 else 0x00#8) ^^^ (if b.getLsbD 7 then 0x1B#8 else 0x00#8) := by
    rw [BitVec.getLsbD_xor]
    cases a.getLsbD 7 <;> cases b.getLsbD 7 <;> rfl
  simp only [xtime, BitVec.shiftLeft_xor_distrib, hreduce]
  ac_rfl

theorem iterate_xtime_xor (n : Nat) (a b : Byte) : xtime^[n] (a ^^^ b) = xtime^[n] a ^^^ xtime^[n] b :=
  Function.Semiconj₂.iterate (op := (· ^^^ ·)) xtime_xor n a b

/-! ### `gmul` as a sum of doublings (R122) -/

/-- The XOR of the doublings of `a` that the lowest `n` bits of `b` select. -/
def doublingSum (a b : Byte) : Nat → Byte
  | 0 => 0x00
  | n + 1 => doublingSum a b n ^^^ if b.getLsbD n then xtime^[n] a else 0x00

/-- After `n` bit positions `gmul`'s loop holds the sum so far and `a` doubled `n` times. -/
theorem foldl_gmulStep (a b : Byte) (n : Nat) :
    (List.range n).foldl (gmulStep b) (0x00, a) = (doublingSum a b n, xtime^[n] a) := by
  induction n with
  | zero => rfl
  | succ n ih =>
    rw [List.range_succ, List.foldl_append, ih, Function.iterate_succ_apply']
    cases h : b.getLsbD n <;> simp [gmulStep, doublingSum, h]

theorem gmul_eq_doublingSum (a b : Byte) : gmul a b = doublingSum a b 8 :=
  congrArg Prod.fst (foldl_gmulStep a b 8)

theorem foldl_iterate_xtime (a b : Byte) (n : Nat) :
    (List.range n).foldl (fun p k => if b.getLsbD k then p ^^^ xtime^[k] a else p) 0x00 = doublingSum a b n := by
  induction n with
  | zero => rfl
  | succ n ih =>
    rw [List.range_succ, List.foldl_append, ih]
    cases h : b.getLsbD n <;> simp [doublingSum, h]

/-! ### Both operands are additive, and the first commutes with doubling -/

theorem doublingSum_xor_left (a b c : Byte) (n : Nat) :
    doublingSum (a ^^^ b) c n = doublingSum a c n ^^^ doublingSum b c n := by
  induction n with
  | zero => exact BitVec.xor_zero.symm
  | succ n ih =>
    simp only [doublingSum, ih, iterate_xtime_xor]
    cases c.getLsbD n
    · simp
    · simp only [if_true]
      ac_rfl

theorem doublingSum_xor_right (a b c : Byte) (n : Nat) :
    doublingSum a (b ^^^ c) n = doublingSum a b n ^^^ doublingSum a c n := by
  induction n with
  | zero => exact BitVec.xor_zero.symm
  | succ n ih =>
    have hselect : (if (b ^^^ c).getLsbD n then xtime^[n] a else 0x00) =
        (if b.getLsbD n then xtime^[n] a else 0x00) ^^^ (if c.getLsbD n then xtime^[n] a else 0x00) := by
      rw [BitVec.getLsbD_xor]
      cases b.getLsbD n <;> cases c.getLsbD n <;> simp
    simp only [doublingSum, ih, hselect]
    ac_rfl

theorem doublingSum_xtime_left (a b : Byte) (n : Nat) : doublingSum (xtime a) b n = xtime (doublingSum a b n) := by
  induction n with
  | zero => exact xtime_zero.symm
  | succ n ih =>
    rw [doublingSum, doublingSum, xtime_xor, ih, ← Function.iterate_succ_apply, Function.iterate_succ_apply']
    cases b.getLsbD n <;> simp

theorem gmul_zero_left (b : Byte) : gmul 0x00 b = 0x00 := by
  simp [gmul_eq_doublingSum, doublingSum]

theorem gmul_zero_right (a : Byte) : gmul a 0x00 = 0x00 := by
  simp [gmul_eq_doublingSum, doublingSum]

theorem gmul_one_right (a : Byte) : gmul a 0x01 = a := by
  simp [gmul_eq_doublingSum, doublingSum]

/-- The eight doublings of 0x01 are the eight bits of a byte. -/
theorem gmul_one_left : ∀ b : Byte, gmul 0x01 b = b := by decide

theorem gmul_xor_left (a b c : Byte) : gmul (a ^^^ b) c = gmul a c ^^^ gmul b c := by
  simpa only [gmul_eq_doublingSum] using doublingSum_xor_left a b c 8

theorem gmul_xor_right (a b c : Byte) : gmul a (b ^^^ c) = gmul a b ^^^ gmul a c := by
  simpa only [gmul_eq_doublingSum] using doublingSum_xor_right a b c 8

theorem gmul_xtime_left (a b : Byte) : gmul (xtime a) b = xtime (gmul a b) := by
  simpa only [gmul_eq_doublingSum] using doublingSum_xtime_left a b 8

/-! ### The field laws (R123) -/

/-- Every byte is a sum of doublings of 0x01, so an additive property that doubling keeps holds of every byte. -/
theorem byte_induction {P : Byte → Prop} (one : P 0x01) (double : ∀ a, P a → P (xtime a))
    (add : ∀ a b, P a → P b → P (a ^^^ b)) (b : Byte) : P b := by
  have zero : P 0x00 := add 0x01 0x01 one one
  have hsum (n : Nat) : P (doublingSum 0x01 b n) := by
    induction n with
    | zero => exact zero
    | succ n ih =>
      refine add _ _ ih ?_
      split
      · exact Function.Iterate.rec P one double n
      · exact zero
  rw [← gmul_one_left b, gmul_eq_doublingSum]
  exact hsum 8

theorem gmul_xtime_right (a b : Byte) : gmul a (xtime b) = xtime (gmul a b) := by
  induction a using byte_induction with
  | one => rw [gmul_one_left, gmul_one_left]
  | double a ih => rw [gmul_xtime_left, gmul_xtime_left, ih]
  | add a a' ih ih' => rw [gmul_xor_left, gmul_xor_left, xtime_xor, ih, ih']

theorem gmul_comm (a b : Byte) : gmul a b = gmul b a := by
  induction b using byte_induction with
  | one => rw [gmul_one_left, gmul_one_right]
  | double b ih => rw [gmul_xtime_left, gmul_xtime_right, ih]
  | add b b' ih ih' => rw [gmul_xor_left, gmul_xor_right, ih, ih']

theorem gmul_assoc (a b c : Byte) : gmul (gmul a b) c = gmul a (gmul b c) := by
  induction c using byte_induction with
  | one => rw [gmul_one_right, gmul_one_right]
  | double c ih => simp only [gmul_xtime_right, ih]
  | add c c' ih ih' => simp only [gmul_xor_right, ih, ih']

theorem gmul_iterate_xtime_one (n : Nat) (a : Byte) : gmul (xtime^[n] 0x01) a = xtime^[n] a := by
  have hcomm : Function.Semiconj (gmul · a) xtime xtime := fun b => gmul_xtime_left b a
  rw [(hcomm.iterate_right n).eq, gmul_one_left]

/-- The multiplicative inverse from which SBOX is built: its affine map undone (R134). -/
def sboxInverse (a : Byte) : Byte :=
  (SBOX a).rotateLeft 1 ^^^ (SBOX a).rotateLeft 3 ^^^ (SBOX a).rotateLeft 6 ^^^ 0x05

theorem gmul_sboxInverse : ∀ a : Byte, a ≠ 0x00 → gmul a (sboxInverse a) = 0x01 := by decide +kernel

/-- SBOX gives an inverse; in a commutative monoid it is the only one. -/
theorem existsUnique_gmul_eq_one (a : Byte) (ha : a ≠ 0x00) : ∃! b : Byte, gmul a b = 0x01 := by
  refine ⟨sboxInverse a, gmul_sboxInverse a ha, fun b (hb : gmul a b = 0x01) => ?_⟩
  calc
    b = gmul (gmul a (sboxInverse a)) b := by rw [gmul_sboxInverse a ha, gmul_one_left]
    _ = gmul (sboxInverse a) (gmul a b) := by rw [gmul_comm a, gmul_assoc]
    _ = sboxInverse a := by rw [hb, gmul_one_right]

/-- Settles O3: additivity and doubling give the laws for all operands by `byte_induction`, each constant is a sum of
doublings of 0x01, and inverses come from SBOX. -/
theorem gmulObeysTheFieldLaws : Obligations.GmulObeysTheFieldLaws := by
  refine ⟨fun a => ⟨gmul_zero_right a, gmul_zero_left a⟩, fun a => ⟨gmul_one_right a, gmul_one_left a⟩, gmul_comm,
    gmul_xor_right, gmul_assoc, fun a => ⟨gmul_iterate_xtime_one 1 a, ?_⟩, fun a => ⟨?_, ?_, ?_, ?_⟩,
    existsUnique_gmul_eq_one, fun a b => Nat.le_of_lt_succ (gmul a b).isLt⟩
  · change gmul (xtime 0x01 ^^^ 0x01) a = _
    simp only [gmul_xor_left, gmul_xtime_left, gmul_one_left]
  · change gmul (xtime^[3] 0x01 ^^^ 0x01) a = _
    simp only [gmul_xor_left, gmul_iterate_xtime_one, gmul_one_left]
  · change gmul (xtime^[3] 0x01 ^^^ xtime 0x01 ^^^ 0x01) a = _
    simp only [gmul_xor_left, gmul_iterate_xtime_one, gmul_xtime_left, gmul_one_left]
  · change gmul (xtime^[3] 0x01 ^^^ xtime^[2] 0x01 ^^^ 0x01) a = _
    simp only [gmul_xor_left, gmul_iterate_xtime_one, gmul_one_left]
  · change gmul (xtime^[3] 0x01 ^^^ xtime^[2] 0x01 ^^^ xtime 0x01) a = _
    simp only [gmul_xor_left, gmul_iterate_xtime_one, gmul_xtime_left, gmul_one_left]

/-! ### The sum and the source's test values (R121, R122, R125) -/

/-- Settles O2: `gmul`'s loop and the sum of R122 are the same `doublingSum`; what remains are closed values. -/
theorem xtimeDoublesAndGmulSumsTheDoublings : Obligations.XtimeDoublesAndGmulSumsTheDoublings :=
  ⟨toNat_xtime, rfl, rfl, rfl, rfl, rfl, fun a b => (gmul_eq_doublingSum a b).trans (foldl_iterate_xtime a b 8).symm,
    by decide⟩

end Sys2Proof.Proofs

/-! SUPPORT. The AES primitives as functions (41_aes_primitives.md): the column-major mapping, the substitution tables,
the MixColumns matrices as an algebra under `mixWith`, the row rotations, and what undoes what. -/

namespace Sys2Proof.Proofs

open Sys2Proof Sys2Proof.Machine Sys2Proof.Claim

/-! ### Blocks and States (R130, R131) -/

/-- Every position of a Block is that of a row and a column. -/
theorem exists_row_column (i : Fin 16) : ∃ r c : Fin 4, i.val = r.val + 4 * c.val :=
  ⟨⟨i.val % 4, by omega⟩, ⟨i.val / 4, by omega⟩, (Nat.mod_add_div i.val 4).symm⟩

theorem getElem_stateToBlock_position (S : AesState) (r c : Fin 4) :
    (stateToBlock S)[r.val + 4 * c.val] = S[r][c] := by
  have hr : (r.val + 4 * c.val) % 4 = r.val := by omega
  have hc : (r.val + 4 * c.val) / 4 = c.val := by omega
  simp [getElem_stateToBlock, hr, hc]

theorem getElem_blockToState_position (B : Block) (i : Fin 16) : (blockToState B)[i.val % 4][i.val / 4] = B[i] := by
  simp [blockToState, Nat.mod_add_div]

theorem stateToBlock_blockToState (B : Block) : stateToBlock (blockToState B) = B :=
  block_ext fun i => (getElem_stateToBlock _ i.val i.isLt).trans (getElem_blockToState_position B i)

theorem blockToState_stateToBlock (S : AesState) : blockToState (stateToBlock S) = S :=
  aes_ext fun r c => (getElem_blockToState _ r c).trans (getElem_stateToBlock_position S r c)

/-- Settles O4: position `r + 4c` of a Block is row `r`, column `c`, and every position is of that form. -/
theorem blockAndStateMapsAreInverse : Obligations.BlockAndStateMapsAreInverse :=
  ⟨getElem_blockToState_position, getElem_blockToState, getElem_stateToBlock_position, stateToBlock_blockToState,
    blockToState_stateToBlock⟩

/-! ### The substitution tables (R134, R135, R138) -/

theorem invSbox_sbox : ∀ b : Byte, INV_SBOX (SBOX b) = b := by decide +kernel

theorem sbox_invSbox : ∀ b : Byte, SBOX (INV_SBOX b) = b := by decide +kernel

theorem sbox_bijective : Function.Bijective SBOX :=
  Function.bijective_iff_has_inverse.2 ⟨INV_SBOX, invSbox_sbox, sbox_invSbox⟩

theorem sbox_ne_self : ∀ b : Byte, SBOX b ≠ b := by decide +kernel

theorem sbox_ne_complement : ∀ b : Byte, SBOX b ≠ b ^^^ 0xFF := by decide +kernel

/-- Settles O5: the entries and the laws over all 256 bytes are evaluated; two tables that undo each other are
bijections. -/
theorem substitutionTablesAreInverse : Obligations.SubstitutionTablesAreInverse :=
  ⟨by decide +kernel, by decide +kernel, invSbox_sbox, sbox_invSbox, sbox_bijective, sbox_ne_self, sbox_ne_complement,
    rfl, rfl⟩

theorem invSubBytes_subBytes (S : AesState) : invSubBytes (subBytes S) = S :=
  aes_ext fun r c => by rw [getElem_invSubBytes, getElem_subBytes, invSbox_sbox]

theorem subBytes_invSubBytes (S : AesState) : subBytes (invSubBytes S) = S :=
  aes_ext fun r c => by rw [getElem_subBytes, getElem_invSubBytes, sbox_invSbox]

/-! ### The row rotations (R139, R140) -/

theorem invShiftRows_shiftRows (S : AesState) : invShiftRows (shiftRows S) = S :=
  aes_ext fun r c => by simp only [getElem_invShiftRows, getElem_shiftRows, sub_add_cancel]

theorem shiftRows_invShiftRows (S : AesState) : shiftRows (invShiftRows S) = S :=
  aes_ext fun r c => by simp only [getElem_shiftRows, getElem_invShiftRows, add_sub_cancel_right]

/-- Four rotations by `r` are a rotation by `4r`, a multiple of the row's length. -/
theorem shiftRows_four_times (S : AesState) : shiftRows (shiftRows (shiftRows (shiftRows S))) = S := by
  have hturn : ∀ r c : Fin 4, c + r + r + r + r = c := by decide
  exact aes_ext fun r c => by simp only [getElem_shiftRows, hturn]

theorem shiftRows_of_equal_columns {S : AesState} (h : ∀ r c c' : Fin 4, S[r][c] = S[r][c']) : shiftRows S = S :=
  aes_ext fun r c => (getElem_shiftRows S r c).trans (h r (c + r) c)

theorem shiftRows_subBytes (S : AesState) : shiftRows (subBytes S) = subBytes (shiftRows S) :=
  aes_ext fun r c => by rw [getElem_shiftRows, getElem_subBytes, getElem_subBytes, getElem_shiftRows]

theorem invShiftRows_invSubBytes (S : AesState) : invShiftRows (invSubBytes S) = invSubBytes (invShiftRows S) :=
  aes_ext fun r c => by rw [getElem_invShiftRows, getElem_invSubBytes, getElem_invSubBytes, getElem_invShiftRows]

/-! ### The MixColumns matrices (R141 to R144) -/

/-- `gmul_zero_left` as `simp` writes the zero byte. -/
@[simp] theorem gmul_zero_ofNat (b : Byte) : gmul 0#8 b = 0#8 := gmul_zero_left b

/-- `gmul_one_left` as `simp` writes the byte one. -/
@[simp] theorem gmul_one_ofNat (b : Byte) : gmul 1#8 b = b := gmul_one_left b

/-- The identity matrix over bytes. -/
def identityMatrix : AesState := buildAes fun i j => if i = j then 0x01 else 0x00

theorem getElem_mixWith_nat (M : Vector (Vector Byte 4) 4) (S : AesState) (r c : Nat) (hr : r < 4) (hc : c < 4) :
    (mixWith M S)[r][c] =
      gmul M[r][0] S[0][c] ^^^ gmul M[r][1] S[1][c] ^^^ gmul M[r][2] S[2][c] ^^^ gmul M[r][3] S[3][c] := by
  simp [mixWith]

/-- `mixWith` is the product of matrices, so it is associative. -/
theorem mixWith_mixWith (A B : Vector (Vector Byte 4) 4) (S : AesState) :
    mixWith A (mixWith B S) = mixWith (mixWith A B) S := by
  refine aes_ext fun r c => ?_
  simp only [Fin.getElem_fin, getElem_mixWith_nat, gmul_xor_left, gmul_xor_right, gmul_assoc]
  ac_rfl

theorem mixWith_identityMatrix (S : AesState) : mixWith identityMatrix S = S := by
  refine aes_ext fun r c => ?_
  fin_cases r <;> simp [getElem_mixWith_nat, identityMatrix]

theorem mixInv_eq_cube : MIX_INV = mixWith MIX (mixWith MIX MIX) := by decide +kernel

theorem mix_mul_mixInv : mixWith MIX MIX_INV = identityMatrix := by decide +kernel

/-- The cube of a matrix commutes with the matrix. -/
theorem mixInv_mul_mix : mixWith MIX_INV MIX = identityMatrix := by
  rw [← mix_mul_mixInv, mixInv_eq_cube]
  simp only [mixWith_mixWith]

theorem getElem_identityMatrix (i j : Fin 4) : identityMatrix[i][j] = if i = j then 0x01 else 0x00 :=
  getElem_buildAes _ i j

/-- Settles O6, from the cube and one product. -/
theorem mixMatrixInverse : Obligations.MixMatrixInverse := by
  refine ⟨rfl, rfl, fun i j => ?_, mixInv_eq_cube, fun i j => ?_⟩
  · rw [matMul, mixInv_mul_mix, getElem_identityMatrix]
  · simp only [matMul, ← mixInv_eq_cube, mix_mul_mixInv, getElem_identityMatrix]

theorem invMixColumns_mixColumns (S : AesState) : invMixColumns (mixColumns S) = S := by
  rw [invMixColumns, mixColumns, mixWith_mixWith, mixInv_mul_mix, mixWith_identityMatrix]

theorem mixColumns_invMixColumns (S : AesState) : mixColumns (invMixColumns S) = S := by
  rw [invMixColumns, mixColumns, mixWith_mixWith, mix_mul_mixInv, mixWith_identityMatrix]

/-- A matrix whose rows each sum to one leaves a column of four equal bytes. -/
theorem getElem_mixWith_of_equal_column {M : Vector (Vector Byte 4) 4}
    (hM : ∀ r : Fin 4, M[r][0] ^^^ M[r][1] ^^^ M[r][2] ^^^ M[r][3] = 0x01) {S : AesState} {c : Fin 4} {v : Byte}
    (hS : ∀ r : Fin 4, S[r][c] = v) (r : Fin 4) : (mixWith M S)[r][c] = v := by
  have h0 : S[0][c] = v := hS 0
  have h1 : S[1][c] = v := hS 1
  have h2 : S[2][c] = v := hS 2
  have h3 : S[3][c] = v := hS 3
  rw [getElem_mixWith, h0, h1, h2, h3, ← gmul_xor_left, ← gmul_xor_left, ← gmul_xor_left, hM, gmul_one_left]

/-! ### Adding the round key (R145) -/

theorem getElem_zeroAes (r c : Fin 4) : zeroAes[r][c] = 0x00 := by simp [zeroAes]

theorem addRoundKey_addRoundKey (S K : AesState) : addRoundKey (addRoundKey S K) K = S :=
  aes_ext fun r c => by
    rw [getElem_addRoundKey, getElem_addRoundKey, BitVec.xor_assoc, BitVec.xor_self, BitVec.xor_zero]

theorem addRoundKey_zeroAes (S : AesState) : addRoundKey S zeroAes = S :=
  aes_ext fun r c => by rw [getElem_addRoundKey, getElem_zeroAes]; exact BitVec.xor_zero

theorem addRoundKey_self (S : AesState) : addRoundKey S S = zeroAes :=
  aes_ext fun r c => by rw [getElem_addRoundKey, getElem_zeroAes]; exact BitVec.xor_self

/-! ### What undoes what (R147) -/

/-- Settles O7, primitive by primitive. -/
theorem aesPrimitivesInvert : Obligations.AesPrimitivesInvert :=
  ⟨fun S => ⟨invSubBytes_subBytes S, subBytes_invSubBytes S⟩,
    fun S => ⟨invShiftRows_shiftRows S, shiftRows_invShiftRows S⟩,
    fun S => ⟨invMixColumns_mixColumns S, mixColumns_invMixColumns S⟩,
    addRoundKey_addRoundKey, shiftRows_subBytes, invShiftRows_invSubBytes⟩

end Sys2Proof.Proofs

/-! SUPPORT. The AES micro-ops (41_aes_primitives.md): the frame of R104 around a write of `S`, once for all of them,
the words they encode to, and for each micro-op its effect on `S`. -/

namespace Sys2Proof.Proofs

open Sys2Proof Sys2Proof.Machine Sys2Proof.Claim

/-! ### The frame of a micro-op (R104) -/

/-- Recording a Step, after a change of the working fields only, is what R104 asks for. -/
theorem recorded_recordStep {s s' : State} (same : SameButWorking s s') (r : StepRecord) :
    Recorded s (s'.recordStep r) r where
  pc := by rw [State.recordStep_pc, same.pc]
  written j h hj := by simp [same.pc, hj]
  others j h hj := by simp [same.pc, same.TRACE, Ne.symm hj]
  last h := s'.recordStep_last r (by rw [same.pc, same.ALG_L, traceLength_eq, h])
  notLast h := by
    rw [← same.OUT, ← same.phase]
    exact s'.recordStep_not_last r (by rw [same.pc, same.ALG_L, traceLength_eq]; exact h)

theorem inputsKept_recordStep {s s' : State} (same : SameButWorking s s') (r : StepRecord) :
    InputsKept s (s'.recordStep r) := by
  constructor <;> simp [same.ALG_L, same.DIR_L, same.TIDX, same.MSG, same.KEY, same.turns, same.reads, same.draws]

theorem sameButWorking_setS (s : State) (v : AesState) : SameButWorking s (s.setS v) := by
  constructor <;> rfl

/-- What a micro-op that writes `S` and records `r` leaves as it was. -/
theorem frame_setS_recordStep (s : State) (v : AesState) (r : StepRecord) :
    ((s.setS v).recordStep r).V = s.V ∧ ((s.setS v).recordStep r).RK = s.RK ∧ ((s.setS v).recordStep r).SK = s.SK ∧
    InputsKept s ((s.setS v).recordStep r) ∧ Recorded s ((s.setS v).recordStep r) r :=
  ⟨State.recordStep_V _ r, State.recordStep_RK _ r, State.recordStep_SK _ r,
    inputsKept_recordStep (sameButWorking_setS s v) r, recorded_recordStep (sameButWorking_setS s v) r⟩

/-- A legal AES micro-op with the word `w` completes, applies `g` to `S`, and keeps the rest. -/
theorem aesMicroOp_effect {i : Instr} {w : UWord} (hw : i.wf = true) (hword : encode i = .u w)
    (g : AesState → AesState) (rk : Block) (s : State) :
    ∃ t, aesMicroOp i g rk s = .next t ∧ t.S = g s.S ∧ t.V = s.V ∧ t.RK = s.RK ∧ t.SK = s.SK ∧ InputsKept s t ∧
      Recorded s t (aesRecord w (stateToBlock s.S) (stateToBlock t.S) rk) := by
  have hS (r : StepRecord) : ((s.setS (g s.S)).recordStep r).S = g s.S := State.recordStep_S _ r
  have huop : uopOf i = w := by rw [uopOf, hword]
  subst huop
  refine ⟨_, aesMicroOp_of_wf i g rk s hw, hS _, ?_⟩
  rw [hS]
  exact frame_setS_recordStep s (g s.S) _

/-! ### The words of the micro-ops (R90, R91) -/

/-- The round field is the low end of the word. -/
theorem packU_eq_add (a : Alg) (d : Dir) (op : BitVec 4) (round : BitVec 5) :
    packU a d op round = packU a d op 0 + round.setWidth 16 := by
  rw [BitVec.setWidth_eq_append (by decide)]
  exact BitVec.append_zero_add_zero_append.symm

/-- A word without repetition in a program stands only where it stands. -/
theorem onlyAt_rom {a : Alg} {d : Dir} {w : UWord} {n : Nat} (h : (rom a d)[n]? = some w) : OnlyAt (rom a d) w n := by
  intro j
  refine ⟨fun hj => ?_, fun hj => hj ▸ h⟩
  have hlt : j < (rom a d).length := (List.getElem?_eq_some_iff.1 hj).1
  exact (List.getElem?_inj hlt (nodup_rom a d)).1 (hj.trans h.symm)

theorem encoded_eq_add (a : Alg) (d : Dir) (op : BitVec 4) (round : BitVec 5) {base : UWord}
    (hbase : packU a d op 0 = base) : Encoded.u (packU a d op round) = .u (base + round.setWidth 16) := by
  rw [packU_eq_add, hbase]

theorem encode_addrk (dir : Dir) (round : BitVec 5) :
    encode (.addrk dir round) = .u (byDir dir 0x0200 0x4200 + round.setWidth 16) := by
  cases dir with
  | encrypt => exact encoded_eq_add .aes .encrypt 2 round rfl
  | decrypt => exact encoded_eq_add .aes .decrypt 2 round rfl

theorem encode_subb (round : BitVec 5) : encode (.subb round) = .u (0x0300 + round.setWidth 16) :=
  encoded_eq_add .aes .encrypt 3 round rfl

theorem encode_shrow (round : BitVec 5) : encode (.shrow round) = .u (0x0400 + round.setWidth 16) :=
  encoded_eq_add .aes .encrypt 4 round rfl

theorem encode_mixc (round : BitVec 5) : encode (.mixc round) = .u (0x0500 + round.setWidth 16) :=
  encoded_eq_add .aes .encrypt 5 round rfl

theorem encode_isubb (round : BitVec 5) : encode (.isubb round) = .u (0x4600 + round.setWidth 16) :=
  encoded_eq_add .aes .decrypt 6 round rfl

theorem encode_ishrow (round : BitVec 5) : encode (.ishrow round) = .u (0x4700 + round.setWidth 16) :=
  encoded_eq_add .aes .decrypt 7 round rfl

theorem encode_imixc (round : BitVec 5) : encode (.imixc round) = .u (0x4800 + round.setWidth 16) :=
  encoded_eq_add .aes .decrypt 8 round rfl

/-! ### Loading the message (R132) -/

/-- Settles O20: the write of `S` in its frame, and the column-major mapping. -/
theorem blk2stLoadsTheMessage : Obligations.Blk2stLoadsTheMessage := by
  refine ⟨rfl, rfl, onlyAt_rom rfl, onlyAt_rom rfl, fun dir s => ?_, by decide +kernel⟩
  have hS (r : StepRecord) : ((s.setS (blockToState s.MSG)).recordStep r).S = blockToState s.MSG :=
    State.recordStep_S _ r
  refine ⟨_, exec_blk2st dir s, ?_, ?_, ?_⟩
  · rw [hS]
    exact getElem_blockToState s.MSG
  · rw [hS]
    exact stateToBlock_blockToState s.MSG
  · cases dir <;> exact frame_setS_recordStep s _ _

/-! ### Adding the round key (R146) -/

/-- Settles O22: the index of R93 is that of a round key, which is added and recorded. -/
theorem addrkXorsTheIndexedRoundKey : Obligations.AddrkXorsTheIndexedRoundKey := by
  refine ⟨fun round => ⟨encode_addrk .encrypt round, encode_addrk .decrypt round⟩, rfl, rfl, rfl, rfl,
    fun dir round s hround => ?_, addRoundKey_zeroAes, addRoundKey_self, by decide +kernel⟩
  have hwf : (Instr.addrk dir round).wf = true := roundIn_iff.2 ⟨Nat.zero_le _, hround⟩
  obtain ⟨k, hk⟩ : ∃ k : Fin 11, k.val = addrkKidx dir round :=
    ⟨⟨addrkKidx dir round, Nat.lt_succ_of_le (addrkKidx_le hwf)⟩, rfl⟩
  have hRK : readRK s (addrkKidx dir round) = s.RK[k] := hk ▸ readRK_eq s k
  obtain ⟨t, hexec, hS, frame⟩ := aesMicroOp_effect hwf (encode_addrk dir round)
    (fun S => addRoundKey S (readRK s (addrkKidx dir round))) (stateToBlock (readRK s (addrkKidx dir round))) s
  rw [hRK] at hS frame
  have hkidx : addrkKidx dir round = byDir dir round.toNat (10 - round.toNat) := by cases dir <;> rfl
  exact ⟨k, t, hexec, hk.trans hkidx, hS ▸ getElem_addRoundKey s.S s.RK[k], frame⟩

/-! ### Substituting bytes (R136, R137) -/

/-- A substitution of every byte of a State is one of every byte of its Block image. -/
theorem getElem_stateToBlock_subBytes (S : AesState) (i : Fin 16) :
    (stateToBlock (subBytes S))[i] = SBOX (stateToBlock S)[i] := by
  simp [stateToBlock, subBytes]

/-- Settles O23: each table applied byte by byte, in the frame of an AES micro-op. -/
theorem subbAndIsubbSubstituteEveryByte : Obligations.SubbAndIsubbSubstituteEveryByte := by
  refine ⟨fun round => ⟨encode_subb round, encode_isubb round⟩, by decide, fun round s hlo hhi => ?_,
    fun round s hlo hhi => ?_, ?_, invSubBytes_subBytes, by decide +kernel, by decide +kernel⟩
  · obtain ⟨t, hexec, hS, frame⟩ := aesMicroOp_effect (i := .subb round) (roundIn_iff.2 ⟨hlo, hhi⟩)
      (encode_subb round) subBytes zeroBlock s
    refine ⟨t, hexec, ?_, ?_, frame⟩ <;> rw [hS]
    · exact getElem_subBytes s.S
    · exact getElem_stateToBlock_subBytes s.S
  · obtain ⟨t, hexec, hS, frame⟩ := aesMicroOp_effect (i := .isubb round) (roundIn_iff.2 ⟨hlo, hhi⟩)
      (encode_isubb round) invSubBytes zeroBlock s
    exact ⟨t, hexec, hS ▸ getElem_invSubBytes s.S, frame⟩
  · intro r c
    rw [getElem_subBytes, getElem_invSubBytes, getElem_zeroAes]
    exact ⟨rfl, rfl⟩

/-! ### Rotating rows (R139, R140) -/

theorem getElem_shiftRows_mod (S : AesState) (r c : Fin 4) :
    (shiftRows S)[r][c] = S[r][(c.val + r.val) % 4] :=
  getElem_shiftRows S r c

theorem getElem_invShiftRows_mod (S : AesState) (r c : Fin 4) :
    (invShiftRows S)[r][c] = S[r][(c.val + 4 - r.val) % 4] := by
  have hcol : (c - r).val = (c.val + 4 - r.val) % 4 := by
    rw [Fin.val_sub]
    omega
  rw [getElem_invShiftRows]
  simp only [Fin.getElem_fin, hcol]

theorem byteOf_stateToBlock (S : AesState) (r c : Fin 4) : byteOf (stateToBlock S) (r.val + 4 * c.val) = S[r][c] :=
  (byteOf_eq _ _ (by omega)).trans (getElem_stateToBlock_position S r c)

/-- On Block images ShiftRows is the position list of R139. -/
theorem byteOf_stateToBlock_shiftRows (S : AesState) (i : Fin 16) :
    byteOf (stateToBlock (shiftRows S)) i = byteOf (stateToBlock S) (P_SR.getD i 0) := by
  have hlist : ∀ r c : Fin 4, P_SR.getD (r.val + 4 * c.val) 0 = r.val + 4 * (c + r).val := by decide
  obtain ⟨r, c, hi⟩ := exists_row_column i
  rw [hi, hlist, byteOf_stateToBlock, byteOf_stateToBlock, getElem_shiftRows]

/-- On Block images InvShiftRows is the position list of R140. -/
theorem byteOf_stateToBlock_invShiftRows (S : AesState) (i : Fin 16) :
    byteOf (stateToBlock (invShiftRows S)) i = byteOf (stateToBlock S) (P_ISR.getD i 0) := by
  have hlist : ∀ r c : Fin 4, P_ISR.getD (r.val + 4 * c.val) 0 = r.val + 4 * (c - r).val := by decide
  obtain ⟨r, c, hi⟩ := exists_row_column i
  rw [hi, hlist, byteOf_stateToBlock, byteOf_stateToBlock, getElem_invShiftRows]

/-- Settles O24: each rotation by its column index and by its position list, in the frame of an AES micro-op. -/
theorem shrowAndIshrowRotateRows : Obligations.ShrowAndIshrowRotateRows := by
  refine ⟨fun round => ⟨encode_shrow round, encode_ishrow round⟩, by decide, fun round s hlo hhi => ?_,
    fun round s hlo hhi => ?_, fun S => shiftRows_of_equal_columns, shiftRows_four_times, invShiftRows_shiftRows,
    by decide +kernel⟩
  · obtain ⟨t, hexec, hS, frame⟩ := aesMicroOp_effect (i := .shrow round) (roundIn_iff.2 ⟨hlo, hhi⟩)
      (encode_shrow round) shiftRows zeroBlock s
    refine ⟨t, hexec, ?_, ?_, frame⟩ <;> rw [hS]
    · exact getElem_shiftRows_mod s.S
    · exact byteOf_stateToBlock_shiftRows s.S
  · obtain ⟨t, hexec, hS, frame⟩ := aesMicroOp_effect (i := .ishrow round) (roundIn_iff.2 ⟨hlo, hhi⟩)
      (encode_ishrow round) invShiftRows zeroBlock s
    refine ⟨t, hexec, ?_, ?_, frame⟩ <;> rw [hS]
    · exact getElem_invShiftRows_mod s.S
    · exact byteOf_stateToBlock_invShiftRows s.S

/-! ### Mixing columns (R142, R144) -/

/-- The four sums of MixColumns (R142). -/
theorem getElem_mixColumns (S : AesState) (c : Fin 4) :
    (mixColumns S)[0][c] = gmul 2 S[0][c] ^^^ gmul 3 S[1][c] ^^^ S[2][c] ^^^ S[3][c] ∧
    (mixColumns S)[1][c] = S[0][c] ^^^ gmul 2 S[1][c] ^^^ gmul 3 S[2][c] ^^^ S[3][c] ∧
    (mixColumns S)[2][c] = S[0][c] ^^^ S[1][c] ^^^ gmul 2 S[2][c] ^^^ gmul 3 S[3][c] ∧
    (mixColumns S)[3][c] = gmul 3 S[0][c] ^^^ S[1][c] ^^^ S[2][c] ^^^ gmul 2 S[3][c] := by
  simp [mixColumns, getElem_mixWith_nat, MIX]

/-- The four sums of InvMixColumns (R144). -/
theorem getElem_invMixColumns (S : AesState) (c : Fin 4) :
    (invMixColumns S)[0][c] =
      gmul 0x0E S[0][c] ^^^ gmul 0x0B S[1][c] ^^^ gmul 0x0D S[2][c] ^^^ gmul 0x09 S[3][c] ∧
    (invMixColumns S)[1][c] =
      gmul 0x09 S[0][c] ^^^ gmul 0x0E S[1][c] ^^^ gmul 0x0B S[2][c] ^^^ gmul 0x0D S[3][c] ∧
    (invMixColumns S)[2][c] =
      gmul 0x0D S[0][c] ^^^ gmul 0x09 S[1][c] ^^^ gmul 0x0E S[2][c] ^^^ gmul 0x0B S[3][c] ∧
    (invMixColumns S)[3][c] =
      gmul 0x0B S[0][c] ^^^ gmul 0x0D S[1][c] ^^^ gmul 0x09 S[2][c] ^^^ gmul 0x0E S[3][c] := by
  simp [invMixColumns, getElem_mixWith_nat, MIX_INV]

/-- Every row of either matrix sums to one. -/
theorem mix_row_sum : ∀ r : Fin 4, MIX[r][0] ^^^ MIX[r][1] ^^^ MIX[r][2] ^^^ MIX[r][3] = 0x01 := by decide

theorem mixInv_row_sum : ∀ r : Fin 4, MIX_INV[r][0] ^^^ MIX_INV[r][1] ^^^ MIX_INV[r][2] ^^^ MIX_INV[r][3] = 0x01 := by
  decide

/-- Settles O25: each product column by column, in the frame of an AES micro-op; a column of equal bytes meets only the
row sums. -/
theorem mixcAndImixcMultiplyColumns : Obligations.MixcAndImixcMultiplyColumns := by
  refine ⟨fun round => ⟨encode_mixc round, encode_imixc round⟩, by decide, fun round s hlo hhi => ?_,
    fun round s hlo hhi => ?_, fun S c v hS r => ?_, invMixColumns_mixColumns, by decide +kernel⟩
  · obtain ⟨t, hexec, hS, frame⟩ := aesMicroOp_effect (i := .mixc round) (roundIn_iff.2 ⟨hlo, hhi⟩)
      (encode_mixc round) mixColumns zeroBlock s
    exact ⟨t, hexec, hS ▸ getElem_mixColumns s.S, frame⟩
  · obtain ⟨t, hexec, hS, frame⟩ := aesMicroOp_effect (i := .imixc round) (roundIn_iff.2 ⟨hlo, hhi⟩)
      (encode_imixc round) invMixColumns zeroBlock s
    exact ⟨t, hexec, hS ▸ getElem_invMixColumns s.S, frame⟩
  · exact ⟨getElem_mixWith_of_equal_column mix_row_sum hS r, getElem_mixWith_of_equal_column mixInv_row_sum hS r⟩

end Sys2Proof.Proofs

/-! SUPPORT. The AES key schedule (42_aes_key_schedule.md): each word of the expansion from the words before it, the
round keys as words, and the micro-op that writes them all. -/

namespace Sys2Proof.Proofs

open Sys2Proof Sys2Proof.Machine Sys2Proof.Claim

/-! ### The words of the expansion (R160, R162) -/

/-- A longer expansion starts with the shorter one. -/
theorem keyWords_prefix (K : Block) {m n : Nat} (h : m ≤ n) : keyWords K m <+: keyWords K n := by
  induction n, h using Nat.le_induction with
  | base => exact List.prefix_rfl
  | succ n _ ih => exact ih.trans (List.prefix_append _ _)

theorem getElem_keyWords_raw (K : Block) (n : Nat) (j : Fin 4) :
    (keyWords K n)[j.val]'(by simp; omega) = rawKeyWord K j := by
  rw [← (keyWords_prefix K (Nat.zero_le n)).getElem (by simp)]
  fin_cases j <;> rfl

/-- A word past the key is made from those before it, however far the expansion went since (R160). -/
theorem getElem_keyWords_next (K : Block) {n i : Nat} (h4 : 4 ≤ i) (h : i < n + 4) :
    (keyWords K n)[i]'(by simpa using h) = nextKeyWord (keyWords K (i - 4)) i := by
  obtain ⟨m, rfl⟩ := Nat.exists_eq_add_of_le' h4
  rw [← (keyWords_prefix K (show m + 1 ≤ n by omega)).getElem (by simp)]
  simp [keyWords]

/-- A byte of the next word, where the words it is made from are there (R160). -/
theorem getElem_nextKeyWord (W : List KeyWord) {i : Nat} (h4 : 4 ≤ i) (h : i ≤ W.length) (b : Fin 4) :
    (nextKeyWord W i)[b] = W[i - 4][b] ^^^
      (if i % 4 = 0 then SBOX W[i - 1][b + 1] ^^^ (if b = 0 then RCON.getD (i / 4 - 1) 0 else 0)
        else W[i - 1][b]) := by
  have hback (z : KeyWord) : W.getD (i - 4) z = W[i - 4] := List.getD_eq_getElem W z _
  have hprev (z : KeyWord) : W.getD (i - 1) z = W[i - 1] := List.getD_eq_getElem W z _
  simp only [nextKeyWord, hback, hprev]
  split <;> simp [gWord]

/-- The key expansion as a table of its 44 words. -/
def keyTable (K : Block) : Vector KeyWord 44 := ⟨(keyExpansion K).toArray, length_keyExpansion K⟩

theorem keyExpansion_eq_toList (K : Block) : keyExpansion K = (keyTable K).toList := rfl

theorem getElem?_keyExpansion (K : Block) {i : Nat} (h : i < 44) : (keyExpansion K)[i]? = some (keyTable K)[i] := by
  rw [keyExpansion_eq_toList, Vector.getElem?_toList, Vector.getElem?_eq_getElem h]

/-- A word of an expansion that has come far enough stands in the table. -/
theorem getElem_keyTable (K : Block) {n i : Nat} (hn : n ≤ 40) (hi : i < n + 4) :
    (keyTable K)[i] = (keyWords K n)[i]'(by simpa using hi) := by
  rw [(keyWords_prefix K hn).getElem]
  simp only [keyTable, Vector.getElem_mk, List.getElem_toArray, keyExpansion]

/-- The first four words are the key (R160). -/
theorem getElem_keyTable_raw (K : Block) (j b : Fin 4) : (keyTable K)[j.val][b] = K[4 * j.val + b.val] := by
  rw [getElem_keyTable K (le_refl 40) (by omega), getElem_keyWords_raw, rawKeyWord, Fin.getElem_fin, getElem_buildWord]
  exact byteOf_eq K _ (by omega)

/-- The recurrence of R160. -/
theorem getElem_keyTable_next (K : Block) {i : Nat} (h4 : 4 ≤ i) (h : i < 44) (b : Fin 4) :
    (keyTable K)[i][b] = (keyTable K)[i - 4][b] ^^^
      (if i % 4 = 0 then SBOX (keyTable K)[i - 1][b + 1] ^^^ (if b = 0 then RCON.getD (i / 4 - 1) 0 else 0)
        else (keyTable K)[i - 1][b]) := by
  have hbefore : i - 4 ≤ 40 := by omega
  rw [getElem_keyTable K (le_refl 40) h, getElem_keyWords_next K h4 h, getElem_nextKeyWord _ h4 (by simp; omega),
    getElem_keyTable K hbefore (i := i - 4) (by omega), getElem_keyTable K hbefore (i := i - 1) (by omega)]

/-- Each round constant is the double of the one before (R162). -/
theorem rcon_succ : ∀ n, n + 1 < 10 → RCON.getD (n + 1) 0 = xtime (RCON.getD n 0) := by
  have hdouble : ∀ n < 9, RCON.getD (n + 1) 0 = xtime (RCON.getD n 0) := by decide
  exact fun n hn => hdouble n (by omega)

/-- Settles O8: the words before index `i` stay where they are as the expansion grows. -/
theorem keyExpansionRecurrence : Obligations.KeyExpansionRecurrence :=
  ⟨rfl, rcon_succ, fun K => ⟨keyTable K, keyExpansion_eq_toList K, getElem_keyTable_raw K,
    fun _ h4 h => getElem_keyTable_next K h4 h⟩⟩

/-! ### The round keys (R163, R165) -/

theorem getElem_roundKeys_word (K : Block) (r : Fin 11) (b c : Fin 4) :
    (roundKeys K)[r][b][c] = (keyTable K)[4 * r.val + c.val][b] := by
  have hword : (keyExpansion K)[4 * r.val + c.val]? = some (keyTable K)[4 * r.val + c.val] :=
    getElem?_keyExpansion K (by omega)
  have hkey : (roundKeys K)[r] = roundKeyOf (keyExpansion K) r := getElem_roundKeys K r r.isLt
  rw [hkey, roundKeyOf, getElem_buildAes, List.getD_eq_getElem?_getD, hword, Option.getD_some]

/-- On Block images a round key is its four words in order. -/
theorem getElem_stateToBlock_roundKeys (K : Block) (r : Fin 11) (b c : Fin 4) :
    (stateToBlock (roundKeys K)[r])[4 * c.val + b.val] = (keyTable K)[4 * r.val + c.val][b] := by
  simp only [Nat.add_comm (4 * c.val)]
  rw [getElem_stateToBlock_position, getElem_roundKeys_word]

theorem roundKeys_zero (K : Block) : (roundKeys K)[0] = blockToState K := by
  refine aes_ext fun r c => ?_
  calc (roundKeys K)[0][r][c]
    _ = (keyTable K)[4 * 0 + c.val][r] := getElem_roundKeys_word K 0 r c
    _ = (keyTable K)[c.val][r] := by simp only [Nat.mul_zero, Nat.zero_add]
    _ = K[4 * c.val + r.val] := getElem_keyTable_raw K c r
    _ = (blockToState K)[r][c] := by simp only [getElem_blockToState, Nat.add_comm]

/-- Settles O9: a round key is read off the table of words, and the first four words are the key. -/
theorem roundKeysAreWordColumns : Obligations.RoundKeysAreWordColumns :=
  fun K => ⟨keyTable K, keyExpansion_eq_toList K, getElem_roundKeys_word K, getElem_stateToBlock_roundKeys K,
    roundKeys_zero K, (roundKeys K).length_toList⟩

/-! ### The micro-op KEYEXP (R161) -/

/-- The round keys of KEYEXP as the words of the expansion. -/
theorem some_roundKeys_eq_word (K : Block) (k : Fin 11) (b c : Fin 4) :
    some (roundKeys K)[k][b][c] = ((keyExpansion K)[4 * k.val + c.val]?).map (fun w => w[b]) := by
  rw [getElem_roundKeys_word, getElem?_keyExpansion K (by omega), Option.map_some]

theorem sameButWorking_setRK (s : State) (v : Vector AesState 11) : SameButWorking s (s.setRK v) := by
  constructor <;> rfl

/-- What a micro-op that writes the round keys and records `r` leaves as it was. -/
theorem frame_setRK_recordStep (s : State) (v : Vector AesState 11) (r : StepRecord) :
    ((s.setRK v).recordStep r).S = s.S ∧ ((s.setRK v).recordStep r).V = s.V ∧
    ((s.setRK v).recordStep r).SK = s.SK ∧ InputsKept s ((s.setRK v).recordStep r) ∧
    Recorded s ((s.setRK v).recordStep r) r :=
  ⟨State.recordStep_S _ r, State.recordStep_V _ r, State.recordStep_SK _ r,
    inputsKept_recordStep (sameButWorking_setRK s v) r, recorded_recordStep (sameButWorking_setRK s v) r⟩

/-- Settles O21: the write of the round keys in its frame, and the printed words evaluated. -/
theorem keyexpWritesAllRoundKeys : Obligations.KeyexpWritesAllRoundKeys := by
  refine ⟨rfl, rfl, onlyAt_rom rfl, onlyAt_rom rfl, fun dir s => ?_, by decide +kernel⟩
  have hRK (r : StepRecord) : ((s.setRK (roundKeys s.KEY)).recordStep r).RK = roundKeys s.KEY :=
    State.recordStep_RK _ r
  refine ⟨_, exec_keyexp dir s, ?_, ?_⟩
  · rw [hRK]
    exact some_roundKeys_eq_word s.KEY
  · cases dir <;> exact frame_setRK_recordStep s _ _

end Sys2Proof.Proofs

/-! SUPPORT. Each micro-op as a function of the four working fields (30_encoding.md R104), tied to `exec`; from it the
trace invariant (43_aes_sequences.md R176, 45_des_sequences.md R228). -/

namespace Sys2Proof.Proofs

open Sys2Proof Sys2Proof.Machine Sys2Proof.Claim

/-! ### The micro-ops as functions of the working fields (R104) -/

/-- The four fields that a micro-op's own effect writes (R27 to R30). -/
structure Working where
  S : AesState
  V : BitVec 64
  RK : Vector AesState 11
  SK : Vector (BitVec 48) 16

/-- The working fields of a state. -/
def workingOf (s : State) : Working := ⟨s.S, s.V, s.RK, s.SK⟩

/-- `s` with the working fields `w`. -/
def setWorking (s : State) (w : Working) : State := { s with S := w.S, V := w.V, RK := w.RK, SK := w.SK }

/-- The row of the AES table that a micro-op is, under the round keys `RK` (R171, R174). KEYEXP leaves `S`;
an instruction that is no row after row 0 is never asked for. -/
def rowOf (RK : Vector AesState 11) : Instr → AesRow
  | .addrk d r => keyRow (uopOf (.addrk d r)) (rkAt RK (addrkKidx d r))
  | .subb r => plainRow (uopOf (.subb r)) subBytes
  | .shrow r => plainRow (uopOf (.shrow r)) shiftRows
  | .mixc r => plainRow (uopOf (.mixc r)) mixColumns
  | .isubb r => plainRow (uopOf (.isubb r)) invSubBytes
  | .ishrow r => plainRow (uopOf (.ishrow r)) invShiftRows
  | .imixc r => plainRow (uopOf (.imixc r)) invMixColumns
  | i => plainRow (uopOf i) id

/-- The record of an AES row on the State `S`. -/
def rowRecord (row : AesRow) (S : AesState) : StepRecord :=
  aesRecord row.uop (stateToBlock S) (stateToBlock (row.apply S)) row.aux_rk

/-- An AES row on the working fields. -/
def rowStep (row : AesRow) (w : Working) : Working × StepRecord := ({ w with S := row.apply w.S }, rowRecord row w.S)

/-- A DES micro-op on the working fields: `g` applied to `V`. -/
def desStep (i : Instr) (g : BitVec 64 → BitVec 64) (w : Working) : Working × StepRecord :=
  ({ w with V := g w.V }, desPlainRecord (uopOf i) w.V (g w.V))

/-- A DES round with subkey `k` on the working fields (R224). -/
def desRoundStep (i : Instr) (k : BitVec 48) (w : Working) : Working × StepRecord :=
  ({ w with V := desRound w.V k }, desRoundRecord (uopOf i) w.V k)

/-- What a micro-op makes of the working fields, and the Step it records, for the inputs `M` and `K`. A command has
neither. -/
def microStep (M K : Block) (w : Working) : Instr → Working × StepRecord
  | .blk2st d => ({ w with S := blockToState M }, plainRecord (.blk2st d) M M)
  | .keyexp d => ({ w with RK := roundKeys K }, rowRecord (rowOf w.RK (.keyexp d)) w.S)
  | .addrk d r => rowStep (rowOf w.RK (.addrk d r)) w
  | .subb r => rowStep (rowOf w.RK (.subb r)) w
  | .shrow r => rowStep (rowOf w.RK (.shrow r)) w
  | .mixc r => rowStep (rowOf w.RK (.mixc r)) w
  | .isubb r => rowStep (rowOf w.RK (.isubb r)) w
  | .ishrow r => rowStep (rowOf w.RK (.ishrow r)) w
  | .imixc r => rowStep (rowOf w.RK (.imixc r)) w
  | .dinput d => ({ w with V := bitsOf8 M, SK := desKeySchedule (bitsOf8 K) },
      plainRecord (.dinput d) (lowBytes M) (lowBytes M))
  | .dip d => desStep (.dip d) initialPerm w
  | .dround d r => desRoundStep (.dround d r) (skAt w.SK (droundKidx d r)) w
  | .dswap d => desStep (.dswap d) swapHalves w
  | .dfp d => desStep (.dfp d) finalPerm w
  | .startAesEnc _ => (w, zeroRecord)
  | .startDesEnc _ => (w, zeroRecord)
  | .startAesDec _ => (w, zeroRecord)
  | .startDesDec _ => (w, zeroRecord)

/-- The state after a micro-op: its working fields, then its record. -/
def microResult (s : State) (i : Instr) : State :=
  (setWorking s (microStep s.MSG s.KEY (workingOf s) i).1).recordStep (microStep s.MSG s.KEY (workingOf s) i).2

/-- `exec` of a legal micro-op is `microStep` with the recording of R104. -/
theorem exec_eq_microResult {i : Instr} (hw : i.wf = true) (hm : i.isMicro = true) (s : State) :
    exec i s = .next (microResult s i) := by
  cases i with
  | startAesEnc | startDesEnc | startAesDec | startDesDec => exact Bool.noConfusion hm
  | blk2st | keyexp | addrk | subb | shrow | mixc | isubb | ishrow | imixc | dinput | dip | dround | dswap | dfp =>
    exact commit_of_wf _ _ _ hw

theorem sameButWorking_setWorking (s : State) (w : Working) : SameButWorking s (setWorking s w) := by
  constructor <;> rfl

theorem workingOf_microResult (s : State) (i : Instr) :
    workingOf (microResult s i) = (microStep s.MSG s.KEY (workingOf s) i).1 := by
  simp [workingOf, microResult, setWorking]

/-- The frame of R104 around a micro-op. -/
theorem recorded_microResult (s : State) (i : Instr) :
    Recorded s (microResult s i) (microStep s.MSG s.KEY (workingOf s) i).2 :=
  recorded_recordStep (sameButWorking_setWorking s _) _

theorem inputsKept_microResult (s : State) (i : Instr) : InputsKept s (microResult s i) :=
  inputsKept_recordStep (sameButWorking_setWorking s _) _

/-- The Block image of the working state of an algorithm (R104). -/
def imageOf (a : Alg) (w : Working) : Block :=
  match a with
  | .aes => stateToBlock w.S
  | .des => desImage w.V

theorem workingImage_eq_imageOf (s : State) : workingImage s = imageOf s.ALG_L (workingOf s) := by
  unfold workingImage imageOf
  cases s.ALG_L <;> rfl

/-- A micro-op records its own word, and as `after` the image of the state it leaves. -/
theorem microStep_uop_after {i : Instr} {a : Alg} (ha : algOfInstr i = some a) (M K : Block) (w : Working) :
    (microStep M K w i).2.uop = uopOf i ∧ (microStep M K w i).2.after = imageOf a (microStep M K w i).1 := by
  cases i with
  | startAesEnc | startDesEnc | startAesDec | startDesDec => exact nomatch ha
  | blk2st => cases ha; exact ⟨rfl, (stateToBlock_blockToState M).symm⟩
  | dinput => cases ha; exact ⟨rfl, (desImage_bitsOf8 M).symm⟩
  | keyexp | addrk | subb | shrow | mixc | isubb | ishrow | imixc | dip | dround | dswap | dfp =>
    cases ha; exact ⟨rfl, rfl⟩

/-- A micro-op that does not load the message records as `before` the image of the state it finds. -/
theorem microStep_before {i : Instr} {a : Alg} (ha : algOfInstr i = some a) (hl : loadsMessage i = false)
    (M K : Block) (w : Working) : (microStep M K w i).2.before = imageOf a w := by
  cases i with
  | startAesEnc | startDesEnc | startAesDec | startDesDec => exact nomatch ha
  | blk2st | dinput => exact Bool.noConfusion hl
  | keyexp | addrk | subb | shrow | mixc | isubb | ishrow | imixc | dip | dround | dswap | dfp => cases ha; rfl

/-! ### Every step keeps the trace invariant (R176, R228) -/

/-- With nothing written yet the trace invariant asks nothing. -/
theorem traceInv_of_pc_zero {s : State} (h : s.pc.toNat = 0) : TraceInv s where
  words _ _ hlt := absurd (h ▸ hlt) (Nat.not_lt_zero _)
  chain _ _ hlt := absurd (h ▸ hlt) (Nat.not_lt_zero _)
  working _ _ _ heq := absurd (heq.trans h) (Nat.succ_ne_zero _)
  out _ _ _ heq := absurd (heq.trans h) (Nat.succ_ne_zero _)

theorem traceInv_of_sameCore {s t : State} (same : SameCore s t) (inv : TraceInv s) : TraceInv t := by
  rw [eq_withEnvOf_of_sameCore same]
  exact ⟨inv.words, inv.chain, inv.working, inv.out⟩

/-- The trace invariant reads nothing that a host store writes. -/
theorem traceInv_regStore {s : State} (inv : TraceInv s) (off : Offset) (b : Byte) : TraceInv (regStore off b s) := by
  obtain ⟨-, h⟩ | ⟨-, -, h⟩ | ⟨-, -, h⟩ | h := regStore_cases off b s <;> rw [h] <;>
    exact ⟨inv.words, inv.chain, inv.working, inv.out⟩

/-- Recording the program's next word keeps the invariant, if the Step starts where the one before it ended and ends in
the image of the working state. -/
theorem traceInv_recorded {s t : State} {r : StepRecord} (inv : TraceInv s) (hb : s.phase = .busy)
    (hlt : s.pc.toNat < traceLength s.ALG_L) (kept : InputsKept s t) (rec : Recorded s t r)
    (word : (rom s.ALG_L s.DIR_L)[s.pc.toNat]? = some r.uop) (after : r.after = workingImage t)
    (before : s.pc.toNat ≠ 0 → r.before = workingImage s) : TraceInv t := by
  have hpc : t.pc.toNat = s.pc.toNat + 1 := rec.pc ▸ toNat_pc_succ hlt
  constructor <;> rw [hpc]
  · intro j h hj
    rw [kept.ALG_L, kept.DIR_L]
    by_cases hjp : j = s.pc.toNat
    · rw [rec.written j h hjp, hjp, word]
    · rw [rec.others j h hjp]
      exact inv.words j h (by omega)
  · intro j h hj
    rw [rec.others j (by omega) (by omega)]
    by_cases hjp : j + 1 = s.pc.toNat
    · rw [rec.written (j + 1) h hjp, before (by omega)]
      exact inv.working hb j (by omega) hjp
    · rw [rec.others (j + 1) h hjp]
      exact inv.chain j h (by omega)
  · intro _ j h hj
    rw [rec.written j h (by omega), after]
  · intro hd j h hj
    rw [rec.written j h (by omega)]
    by_cases hN : (s.pc + 1).toNat = (if s.ALG_L = .aes then 42 else 20)
    · exact (rec.last hN).1
    · cases hd.symm.trans ((rec.notLast hN).2.trans hb)

/-- The fetched micro-op of the sequencer keeps the trace invariant. -/
theorem traceInv_exec_fetched {s t : State} {w : UWord} {i : Instr} (inv : TraceInv s) (hb : s.phase = .busy)
    (hf : fetch s = some w) (hd : decodeU w = .ok i) (h : exec i s = .next t) : TraceInv t := by
  obtain ⟨j, hj, hwf, hm, ha, hl, -, hu⟩ := rom_word hf
  obtain rfl : j = i := by simpa [hj] using hd
  obtain rfl : microResult s j = t := by simpa [exec_eq_microResult hwf hm] using h
  obtain ⟨huop, hafter⟩ := microStep_uop_after ha s.MSG s.KEY (workingOf s)
  have kept := inputsKept_microResult s j
  refine traceInv_recorded inv hb (pc_lt_of_fetch hf) kept (recorded_microResult s j) ?_ ?_ fun hne => ?_
  · rw [huop, hu]
    exact hf
  · rw [hafter, workingImage_eq_imageOf, kept.ALG_L, workingOf_microResult]
  · rw [workingImage_eq_imageOf]
    exact microStep_before ha (by simpa using mt hl.1 hne) _ _ _

/-- Settles O46: nothing outside BUSY touches what the invariant reads, START and reset empty the trace, and the fetched
micro-op records the next word of the program on the working state. -/
theorem stepKeepsTraceInvariant : Obligations.StepKeepsTraceInvariant := by
  intro s t _ inv hstep
  have taken (ts : List Turn) : TraceInv (s.withTurns ts) := ⟨inv.words, inv.chain, inv.working, inv.out⟩
  cases step_effect hstep with
  | kept same => exact traceInv_of_sameCore same inv
  | stored off b ts _ result => exact result ▸ traceInv_regStore (taken ts) off b
  | started b a d rest _ _ _ result => exact result ▸ traceInv_of_pc_zero rfl
  | ran w i ts busy fetched decoded result => exact traceInv_exec_fetched (taken ts) busy fetched decoded result
  | wasReset rest _ result => exact result ▸ traceInv_of_pc_zero rfl

end Sys2Proof.Proofs

/-! SUPPORT. The micro-programs as lists of instructions, and what each records and leaves: the tables and the big-step
functions of 43_aes_sequences.md and 45_des_sequences.md. -/

namespace Sys2Proof.Proofs

open Sys2Proof Sys2Proof.Machine Sys2Proof.Claim

/-! ### The micro-programs as instructions (R100 to R103) -/

/-- The micro-ops of the AES program of a direction after BLK2ST and KEYEXP. -/
def aesRounds : Dir → List Instr
  | .encrypt =>
    [.addrk .encrypt 0] ++
    middleRounds.flatMap (fun r =>
      [.subb (.ofNat 5 r), .shrow (.ofNat 5 r), .mixc (.ofNat 5 r), .addrk .encrypt (.ofNat 5 r)]) ++
    [.subb 10, .shrow 10, .addrk .encrypt 10]
  | .decrypt =>
    [.addrk .decrypt 0] ++
    middleRounds.flatMap (fun r =>
      [.ishrow (.ofNat 5 r), .isubb (.ofNat 5 r), .addrk .decrypt (.ofNat 5 r), .imixc (.ofNat 5 r)]) ++
    [.ishrow 10, .isubb 10, .addrk .decrypt 10]

/-- The micro-program of an algorithm and a direction. -/
def program : Alg → Dir → List Instr
  | .aes, d => .blk2st d :: .keyexp d :: aesRounds d
  | .des, d => .dinput d :: .dip d :: (desRounds.map (fun r => .dround d (.ofNat 5 r)) ++ [.dswap d, .dfp d])

theorem rom_eq_map_uopOf (a : Alg) (d : Dir) : rom a d = (program a d).map uopOf := by
  cases a <;> cases d <;> decide +kernel

theorem program_legal (a : Alg) (d : Dir) : ∀ i ∈ program a d, i.wf = true ∧ i.isMicro = true := by
  cases a <;> cases d <;> decide

theorem length_program (a : Alg) (d : Dir) : (program a d).length = traceLength a := by
  cases a <;> cases d <;> rfl

/-! ### A program run on the working fields -/

/-- The working fields after the given micro-ops. -/
def workingAfter (M K : Block) (is : List Instr) (w : Working) : Working :=
  is.foldl (fun w i => (microStep M K w i).1) w

@[simp] theorem workingAfter_nil (M K : Block) (w : Working) : workingAfter M K [] w = w := rfl

@[simp] theorem workingAfter_cons (M K : Block) (i : Instr) (is : List Instr) (w : Working) :
    workingAfter M K (i :: is) w = workingAfter M K is (microStep M K w i).1 := rfl

theorem workingAfter_append (M K : Block) (is js : List Instr) (w : Working) :
    workingAfter M K (is ++ js) w = workingAfter M K js (workingAfter M K is w) := List.foldl_append

/-- The Steps that the given micro-ops record. -/
def recordsOf (M K : Block) : List Instr → Working → List StepRecord
  | [], _ => []
  | i :: is, w => (microStep M K w i).2 :: recordsOf M K is (microStep M K w i).1

theorem length_recordsOf (M K : Block) (is : List Instr) (w : Working) : (recordsOf M K is w).length = is.length := by
  induction is generalizing w with
  | nil => rfl
  | cons i is ih => simp [recordsOf, ih]

/-- The State after the given rows of an AES table. -/
def afterRows (rows : List AesRow) (S : AesState) : AesState := rows.foldl (fun S row => row.apply S) S

/-- The rows of the AES table of a direction after KEYEXP, those of the program's micro-ops. -/
def roundRows (d : Dir) (RK : Vector AesState 11) : List AesRow := (aesRounds d).map (rowOf RK)

theorem encryptRows_eq (RK : Vector AesState 11) :
    encryptRows RK = rowOf RK (.keyexp .encrypt) :: roundRows .encrypt RK := rfl

theorem decryptRows_eq (RK : Vector AesState 11) :
    decryptRows RK = rowOf RK (.keyexp .decrypt) :: roundRows .decrypt RK := rfl

/-- An AES trace is the Steps of BLK2ST and KEYEXP, then those of the rounds (R171, R174). -/
theorem aesTrace_eq (d : Dir) (M K : Block) :
    aesTrace d M K = plainRecord (.blk2st d) M M :: rowRecord (rowOf (roundKeys K) (.keyexp d)) (blockToState M) ::
      foldAes (roundRows d (roundKeys K)) (blockToState M) := by
  cases d with
  | encrypt => rw [aesTrace, encryptRows_eq]; rfl
  | decrypt => rw [aesTrace, decryptRows_eq]; rfl

/-- The big-step functions run the rows of the rounds (R170, R173). -/
theorem afterRows_roundRows (d : Dir) (M K : Block) :
    afterRows (roundRows d (roundKeys K)) (blockToState M) = byDir d (encryptState M K) (decryptState M K) := by
  have hKeyexp (S : AesState) : afterRows (roundRows d (roundKeys K)) S =
      afterRows (rowOf (roundKeys K) (.keyexp d) :: roundRows d (roundKeys K)) S := rfl
  rw [hKeyexp]
  cases d with
  | encrypt =>
    have hround : encryptRound (roundKeys K) = fun S r =>
        addRoundKey (mixColumns (shiftRows (subBytes S))) (rkAt (roundKeys K) r) := rfl
    simp only [← encryptRows_eq, byDir, afterRows, encryptState, encryptRows, plainRow, keyRow, hround,
      List.foldl_append, List.foldl_flatMap, List.foldl_cons, List.foldl_nil, id_eq]
  | decrypt =>
    have hround : decryptRound (roundKeys K) = fun S r =>
        invMixColumns (addRoundKey (invSubBytes (invShiftRows S)) (rkAt (roundKeys K) (10 - r))) := rfl
    simp only [← decryptRows_eq, byDir, afterRows, decryptState, decryptRows, plainRow, keyRow, hround,
      List.foldl_append, List.foldl_flatMap, List.foldl_cons, List.foldl_nil, id_eq]

/-- `i` is a micro-op that only applies its row to `S`. -/
def IsRowOp (i : Instr) : Prop := ∀ M K w, microStep M K w i = rowStep (rowOf w.RK i) w

theorem isRowOp_of_mem_aesRounds {d : Dir} {i : Instr} (h : i ∈ aesRounds d) : IsRowOp i := by
  have hops : ∀ i ∈ aesRounds d, algOfInstr i = some .aes ∧ loadsMessage i = false ∧ writesKeyFile i = false := by
    cases d <;> decide
  obtain ⟨ha, hl, hk⟩ := hops i h
  cases i with
  | addrk | subb | shrow | mixc | isubb | ishrow | imixc => exact fun _ _ _ => rfl
  | blk2st => exact Bool.noConfusion hl
  | keyexp => exact Bool.noConfusion hk
  | dinput | dip | dround | dswap | dfp | startAesEnc | startDesEnc | startAesDec | startDesDec => exact nomatch ha

section
variable {is : List Instr} (M K : Block)

theorem recordsOf_rowOps (h : ∀ i ∈ is, IsRowOp i) (w : Working) :
    recordsOf M K is w = foldAes (is.map (rowOf w.RK)) w.S := by
  induction is generalizing w with
  | nil => rfl
  | cons i is ih =>
    rw [recordsOf, h i (List.mem_cons_self ..), ih fun j hj => h j (List.mem_cons_of_mem i hj)]
    rfl

theorem workingAfter_rowOps (h : ∀ i ∈ is, IsRowOp i) (w : Working) :
    workingAfter M K is w = { w with S := afterRows (is.map (rowOf w.RK)) w.S } := by
  induction is generalizing w with
  | nil => rfl
  | cons i is ih =>
    rw [workingAfter_cons, h i (List.mem_cons_self ..), ih fun j hj => h j (List.mem_cons_of_mem i hj)]
    rfl

end

/-- The AES program records the table of R171 or R174, whatever the working fields were. -/
theorem recordsOf_aes (M K : Block) (d : Dir) (w : Working) : recordsOf M K (program .aes d) w = aesTrace d M K := by
  rw [aesTrace_eq, program, recordsOf, recordsOf, recordsOf_rowOps M K fun _ => isRowOp_of_mem_aesRounds]
  rfl

/-- What the AES program leaves: the State of the big-step functions, and the round keys of `K`. -/
theorem workingAfter_aes (M K : Block) (d : Dir) (w : Working) :
    workingAfter M K (program .aes d) w =
      { w with S := byDir d (encryptState M K) (decryptState M K), RK := roundKeys K } := by
  rw [← afterRows_roundRows, program, workingAfter_cons, workingAfter_cons,
    workingAfter_rowOps M K fun _ => isRowOp_of_mem_aesRounds]
  rfl

/-- The words and subkeys of the DES rounds are those of R227. -/
theorem dround_fields (d : Dir) {r : Nat} (h : r ∈ desRounds) (SK : Vector (BitVec 48) 16) :
    uopOf (.dround d (.ofNat 5 r)) = roundWord (desWord d 0x8200) r ∧
    skAt SK (droundKidx d (.ofNat 5 r)) = desKeyOfRound SK d r := by
  have hwords : ∀ r ∈ desRounds, uopOf (.dround d (.ofNat 5 r)) = roundWord (desWord d 0x8200) r := by
    cases d <;> decide
  have hrange : ∀ r ∈ desRounds, (BitVec.ofNat 5 r).toNat = r := by decide
  refine ⟨hwords r h, ?_⟩
  cases d <;> simp only [droundKidx, desKeyOfRound, hrange r h]

section
variable {rounds : List Nat} (M K : Block) (d : Dir) (is : List Instr)

theorem recordsOf_drounds (h : ∀ r ∈ rounds, r ∈ desRounds) (w : Working) :
    recordsOf M K (rounds.map (fun r => .dround d (.ofNat 5 r)) ++ is) w =
      foldDes w.SK d (desWord d 0x8200) (fun V => recordsOf M K is { w with V := V }) rounds w.V := by
  induction rounds generalizing w with
  | nil => rfl
  | cons r rounds ih =>
    obtain ⟨hword, hkey⟩ := dround_fields d (h r (List.mem_cons_self ..)) w.SK
    rw [List.map_cons, List.cons_append, recordsOf, foldDes, ih fun j hj => h j (List.mem_cons_of_mem r hj),
      ← hword, ← hkey]
    rfl

theorem workingAfter_drounds (h : ∀ r ∈ rounds, r ∈ desRounds) (w : Working) :
    workingAfter M K (rounds.map fun r => .dround d (.ofNat 5 r)) w =
      { w with V := rounds.foldl (fun V r => desRound V (desKeyOfRound w.SK d r)) w.V } := by
  induction rounds generalizing w with
  | nil => rfl
  | cons r rounds ih =>
    rw [List.map_cons, workingAfter_cons, ih fun j hj => h j (List.mem_cons_of_mem r hj),
      List.foldl_cons, ← (dround_fields d (h r (List.mem_cons_self ..)) w.SK).2]
    rfl

end

/-- The words of the other DES micro-ops (R102, R103). -/
theorem uopOf_des (d : Dir) :
    uopOf (.dinput d) = desWord d 0x8000 ∧ uopOf (.dip d) = desWord d 0x8100 ∧
    uopOf (.dswap d) = desWord d 0x8300 ∧ uopOf (.dfp d) = desWord d 0x8400 := by
  cases d <;> decide

/-- The DES program records the table of R227, whatever the working fields were. -/
theorem recordsOf_des (M K : Block) (d : Dir) (w : Working) :
    recordsOf M K (program .des d) w = desTrace d (bitsOf8 M) (bitsOf8 K) := by
  obtain ⟨hinput, hip, hswap, hfp⟩ := uopOf_des d
  have hfirst : plainRecord (.dinput d) (lowBytes M) (lowBytes M) =
      desPlainRecord (uopOf (.dinput d)) (bitsOf8 M) (bitsOf8 M) := by
    rw [desPlainRecord, desImage_bitsOf8, plainRecord]
  simp only [program, recordsOf, microStep, desStep, recordsOf_drounds M K d [.dswap d, .dfp d] (fun _ => id), hfirst,
    hinput, hip, hswap, hfp, desTrace]

/-- What the DES program leaves: the result of R220, and the subkeys of `K`. -/
theorem workingAfter_des (M K : Block) (d : Dir) (w : Working) :
    workingAfter M K (program .des d) w =
      { w with V := desCrypt d (bitsOf8 M) (bitsOf8 K), SK := desKeySchedule (bitsOf8 K) } := by
  simp only [program, workingAfter_cons, workingAfter_append, workingAfter_nil,
    workingAfter_drounds M K d (fun _ => id), microStep, desStep, desCrypt]

theorem recordsOf_program (a : Alg) (d : Dir) (M K : Block) (w : Working) :
    recordsOf M K (program a d) w = traceOf a d M K := by
  cases a with
  | aes => exact recordsOf_aes M K d w
  | des => exact recordsOf_des M K d w

theorem length_traceOf (a : Alg) (d : Dir) (M K : Block) : (traceOf a d M K).length = traceLength a := by
  rw [← recordsOf_program a d M K ⟨zeroAes, 0, roundKeys K, desKeySchedule 0⟩, length_recordsOf, length_program]

end Sys2Proof.Proofs

/-! SUPPORT. A whole run of the sequencer, and from it the AES run, determinism, and the AES round trips
(43_aes_sequences.md R170 to R178, 45_des_sequences.md R228). -/

namespace Sys2Proof.Proofs

open Sys2Proof Sys2Proof.Machine Sys2Proof.Claim

/-! ### A whole run of the sequencer (R104) -/

/-- The micro-ops `is` are those of the run that `s` still has to do, with no turn of another agent in between. -/
structure Remaining (is : List Instr) (s : State) : Prop where
  turns : s.turns = []
  rest : (program s.ALG_L s.DIR_L).drop s.pc.toNat = is
  pc : s.pc.toNat + is.length = traceLength s.ALG_L
  busy : is ≠ [] → s.phase = .busy
  done : is = [] → s.phase = .done ∧ s.OUT = workingImage s

/-- The first remaining micro-op runs, and the others remain. -/
theorem Remaining.step {i : Instr} {is : List Instr} {s : State} (h : Remaining (i :: is) s) :
    step s = .next (microResult s i) ∧ Remaining is (microResult s i) := by
  have hi : (program s.ALG_L s.DIR_L)[s.pc.toNat]? = some i := by
    rw [← Nat.add_zero s.pc.toNat, ← List.getElem?_drop, h.rest]
    rfl
  obtain ⟨hw, hm⟩ := program_legal _ _ i (List.mem_of_getElem? hi)
  have hb : s.phase = .busy := h.busy (List.cons_ne_nil i is)
  have hf : fetch s = some (uopOf i) := by rw [fetch, rom_eq_map_uopOf, List.getElem?_map, hi, Option.map_some]
  have hd : decodeU (uopOf i) = .ok i := by rw [decodeU_uopOf hm, ifLegal, if_pos hw]
  have hpc : (s.pc + 1).toNat = s.pc.toNat + 1 := toNat_pc_succ (pc_lt_of_fetch hf)
  have hlen : s.pc.toNat + (is.length + 1) = traceLength s.ALG_L := h.pc
  have kept := inputsKept_microResult s i
  have hrec := recorded_microResult s i
  refine ⟨by rw [step_nil h.turns, sequencerTurn_busy hb hf hd, exec_eq_microResult hw hm], kept.turns.trans h.turns,
    ?_, ?_, fun hne => ?_, fun hnil => ?_⟩
  · rw [kept.ALG_L, kept.DIR_L, hrec.pc, hpc, ← List.drop_drop, h.rest, List.drop_one, List.tail_cons]
  · rw [kept.ALG_L, hrec.pc, hpc, ← hlen, Nat.add_right_comm, Nat.add_assoc]
  · have := List.length_pos_iff.2 hne
    exact (hrec.notLast (by rw [← traceLength_eq]; omega)).2.trans hb
  · subst hnil
    obtain ⟨j, hj, -, -, ha, -⟩ := rom_word hf
    obtain rfl : i = j := by simpa [hd] using hj
    obtain ⟨hout, hphase⟩ := hrec.last (by rw [← traceLength_eq, hpc]; exact hlen)
    refine ⟨hphase, ?_⟩
    rw [hout, (microStep_uop_after ha _ _ _).2, workingImage_eq_imageOf, workingOf_microResult, kept.ALG_L]

theorem inputsKept_refl (s : State) : InputsKept s s := by constructor <;> rfl

theorem inputsKept_trans {s t u : State} (h : InputsKept s t) (h' : InputsKept t u) : InputsKept s u where
  ALG_L := h'.ALG_L.trans h.ALG_L
  DIR_L := h'.DIR_L.trans h.DIR_L
  TIDX := h'.TIDX.trans h.TIDX
  MSG := h'.MSG.trans h.MSG
  KEY := h'.KEY.trans h.KEY
  turns := h'.turns.trans h.turns
  reads := h'.reads.trans h.reads
  draws := h'.draws.trans h.draws

/-- `t` is `s` after the micro-ops `is`: their working fields and records, and the frame. -/
structure RanMicroOps (is : List Instr) (s t : State) : Prop where
  kept : InputsKept s t
  working : workingOf t = workingAfter s.MSG s.KEY is (workingOf s)
  written : ∀ k r, (recordsOf s.MSG s.KEY is (workingOf s))[k]? = some r →
    ∀ h : s.pc.toNat + k < 42, t.TRACE[s.pc.toNat + k] = r
  others : ∀ j (h : j < 42), j < s.pc.toNat ∨ s.pc.toNat + is.length ≤ j → t.TRACE[j] = s.TRACE[j]

theorem RanMicroOps.cons {i : Instr} {is : List Instr} {s t : State} (hpc : (s.pc + 1).toNat = s.pc.toNat + 1)
    (h : RanMicroOps is (microResult s i) t) : RanMicroOps (i :: is) s t := by
  have kept := inputsKept_microResult s i
  have hrec := recorded_microResult s i
  obtain ⟨hkept, hworking, hwritten, hothers⟩ := h
  rw [kept.MSG, kept.KEY, workingOf_microResult] at hworking hwritten
  simp only [hrec.pc, hpc] at hwritten hothers
  refine ⟨inputsKept_trans kept hkept, hworking, fun k r hk hlt => ?_, fun j hlt hj => ?_⟩
  · cases k with
    | zero =>
      obtain rfl : _ = r := Option.some.inj hk
      rw [← hrec.written _ (by omega) rfl]
      exact hothers _ hlt (.inl (Nat.lt_succ_self _))
    | succ k =>
      have := hwritten k r hk (by omega)
      simpa only [Nat.add_right_comm, Nat.add_assoc] using this
  · rw [List.length_cons] at hj
    rw [← hrec.others j hlt (by omega)]
    exact hothers j hlt (by omega)

/-- The sequencer runs what remains. -/
theorem runs_remaining {is : List Instr} : ∀ {s : State}, Remaining is s →
    ∃ t, Runs is.length s t ∧ Remaining [] t ∧ RanMicroOps is s t := by
  induction is with
  | nil => exact fun {s} h => ⟨s, rfl, h, inputsKept_refl s, rfl, nofun, fun _ _ _ => rfl⟩
  | cons i is ih =>
    intro s h
    obtain ⟨hstep, hrest⟩ := h.step
    obtain ⟨t, hruns, hdone, hran⟩ := ih hrest
    have hlen : s.pc.toNat + (is.length + 1) = traceLength s.ALG_L := h.pc
    exact ⟨t, runs_succ hstep hruns, hdone, hran.cons (toNat_pc_succ (a := s.ALG_L) (by omega))⟩

/-- `t` is `s` after a whole run of the algorithm `a`: the table's records, and what the program leaves. -/
structure RanProgram (a : Alg) (s t : State) : Prop where
  phase : t.phase = .done
  pc : t.pc.toNat = traceLength a
  out : t.OUT = imageOf a (workingOf t)
  working : workingOf t = workingAfter s.MSG s.KEY (program a s.DIR_L) (workingOf s)
  kept : InputsKept s t
  trace : ∀ j (h : j < 42), j < traceLength a → (traceOf a s.DIR_L s.MSG s.KEY)[j]? = some t.TRACE[j]
  others : ∀ j (h : j < 42), traceLength a ≤ j → t.TRACE[j] = s.TRACE[j]

/-- From START on, as many steps as the program has micro-ops run it whole, whatever the rest of the state was. -/
theorem runs_program {a : Alg} {s : State} (hb : s.phase = .busy) (ha : s.ALG_L = a) (hpc : s.pc = 0)
    (hturns : s.turns = []) : ∃ t, Runs (traceLength a) s t ∧ RanProgram a s t := by
  subst ha
  have hpc0 : s.pc.toNat = 0 := by rw [hpc]; rfl
  have hlen := length_program s.ALG_L s.DIR_L
  have hne : program s.ALG_L s.DIR_L ≠ [] := List.ne_nil_of_length_pos (hlen ▸ traceLength_pos _)
  obtain ⟨t, hruns, hdone, hran⟩ := runs_remaining (is := program s.ALG_L s.DIR_L) (s := s)
    ⟨hturns, by rw [hpc0, List.drop_zero], by rw [hpc0, Nat.zero_add, hlen], fun _ => hb, fun h => absurd h hne⟩
  obtain ⟨hphase, hout⟩ := hdone.done rfl
  have hwritten := hran.written
  have hothers := hran.others
  simp only [hpc0, Nat.zero_add, recordsOf_program, hlen] at hwritten hothers
  refine ⟨t, hlen ▸ hruns, hphase, ?_, ?_, hran.working, hran.kept, fun j h hj => ?_, fun j h hj => ?_⟩
  · rw [← hran.kept.ALG_L]
    exact hdone.pc
  · rw [hout, workingImage_eq_imageOf, hran.kept.ALG_L]
  · have hlt : j < (traceOf s.ALG_L s.DIR_L s.MSG s.KEY).length := by rw [length_traceOf]; exact hj
    rw [List.getElem?_eq_getElem hlt, hwritten j _ (List.getElem?_eq_getElem hlt) h]
  · exact hothers j h (.inr hj)

/-! ### AES runs (R170 to R174) -/

/-- Settles O49: the run of the AES program, whose rows are those of the table and of the big-step functions. -/
theorem aesRunComputesItsTrace : Obligations.AesRunComputesItsTrace := by
  intro s hb ha hpc hturns
  obtain ⟨t, hruns, ran⟩ := runs_program hb ha hpc hturns
  have hworking := ran.working
  rw [workingAfter_aes] at hworking
  obtain ⟨hS, hV, hRK, hSK⟩ := Working.mk.inj hworking
  have hOUT : t.OUT = stateToBlock t.S := ran.out
  have hpc42 : t.pc = 42 := BitVec.eq_of_toNat_eq ran.pc
  refine ⟨t, hruns, ran.phase, hpc42, ?_, ?_, hOUT.symm, hRK, fun j h => ran.trace j h h, hV, hSK, ran.kept⟩
  · rw [regValue_nsteps, nstepsByte, ran.phase, hpc42]
    rfl
  · rw [hOUT, hS]
    cases s.DIR_L <;> rfl

/-! ### Determinism (R178, R228) -/

/-- Two Blocks agree on the bytes that an algorithm reads (R244). -/
def AgreeFor (a : Alg) (B B' : Block) : Prop := ∀ i, i < blockSize a → byteOf B i = byteOf B' i

theorem eq_of_agreeFor_aes {B B' : Block} (h : AgreeFor .aes B B') : B = B' :=
  block_ext fun i => by rw [← byteOf_fin, ← byteOf_fin, h i i.isLt]

theorem bitsOf8_eq_of_agreeFor_des {B B' : Block} (h : AgreeFor .des B B') : bitsOf8 B = bitsOf8 B' := by
  simp only [bitsOf8, h 0 (by decide), h 1 (by decide), h 2 (by decide), h 3 (by decide), h 4 (by decide),
    h 5 (by decide), h 6 (by decide), h 7 (by decide)]

/-- What a run shows: the trace, the image of the working state and the key file of the algorithm are functions of the
bytes it reads. -/
theorem program_congr {a : Alg} {M M' K K' : Block} (hM : AgreeFor a M M') (hK : AgreeFor a K K') (d : Dir)
    (w w' : Working) :
    traceOf a d M K = traceOf a d M' K' ∧
    imageOf a (workingAfter M K (program a d) w) = imageOf a (workingAfter M' K' (program a d) w') ∧
    (a = .aes → (workingAfter M K (program a d) w).RK = (workingAfter M' K' (program a d) w').RK) ∧
    (a = .des → (workingAfter M K (program a d) w).SK = (workingAfter M' K' (program a d) w').SK) := by
  cases a with
  | aes =>
    obtain rfl := eq_of_agreeFor_aes hM
    obtain rfl := eq_of_agreeFor_aes hK
    rw [workingAfter_aes, workingAfter_aes]
    exact ⟨rfl, rfl, fun _ => rfl, nofun⟩
  | des =>
    have hMbits := bitsOf8_eq_of_agreeFor_des hM
    have hKbits := bitsOf8_eq_of_agreeFor_des hK
    rw [workingAfter_des, workingAfter_des, hMbits, hKbits]
    exact ⟨congrArg₂ (desTrace d) hMbits hKbits, rfl, nofun, fun _ => rfl⟩

/-- Settles O56: both runs are the program's, which shows only functions of the bytes it reads. -/
theorem runsAreDeterministic : Obligations.RunsAreDeterministic := by
  intro s s' a d _ _ hagree
  obtain ⟨t, hruns, ran⟩ := runs_program (a := a) (s := { s.startRun a d with turns := [] }) rfl rfl rfl rfl
  obtain ⟨t', hruns', ran'⟩ := runs_program (a := a) (s := { s'.startRun a d with turns := [] }) rfl rfl rfl rfl
  obtain ⟨htrace, himage, hRK, hSK⟩ := program_congr (fun i hi => (hagree i hi).1) (fun i hi => (hagree i hi).2) d
    (workingOf { s.startRun a d with turns := [] }) (workingOf { s'.startRun a d with turns := [] })
  refine ⟨t, t', hruns, hruns', ran.phase, ran'.phase, BitVec.eq_of_toNat_eq (ran.pc.trans ran'.pc.symm), ?_,
    fun j h hj => Option.some.inj ?_, fun ha => ?_, fun ha => ?_⟩
  · rw [ran.out, ran'.out, ran.working, ran'.working]
    exact himage
  · rw [← ran.trace j h hj, ← ran'.trace j h hj]
    exact congrArg (·[j]?) htrace
  · exact (congrArg Working.RK ran.working).trans ((hRK ha).trans (congrArg Working.RK ran'.working).symm)
  · exact (congrArg Working.SK ran.working).trans ((hSK ha).trans (congrArg Working.SK ran'.working).symm)

/-! ### AES decryption undoes encryption row by row (R177) -/

/-- Each of two rows undoes the other. -/
def RowsInvert (p q : AesRow) : Prop := ∀ S, p.apply (q.apply S) = S ∧ q.apply (p.apply S) = S

theorem rowsInvert_comm {p q : AesRow} (h : RowsInvert p q) : RowsInvert q p := fun S => (h S).symm

/-- The rows of the decrypt rounds are those of the encrypt rounds backwards, each replaced by its inverse: the four
pairs of primitives of R147. -/
theorem decrypt_invert_encrypt (RK : Vector AesState 11) :
    List.Forall₂ RowsInvert (roundRows .decrypt RK) (roundRows .encrypt RK).reverse := by
  simp [roundRows, aesRounds, rowOf, addrkKidx, middleRounds, RowsInvert, plainRow, keyRow, addRoundKey_addRoundKey,
    invSubBytes_subBytes, subBytes_invSubBytes, invShiftRows_shiftRows, shiftRows_invShiftRows,
    invMixColumns_mixColumns, mixColumns_invMixColumns]

theorem encrypt_invert_decrypt (RK : Vector AesState 11) :
    List.Forall₂ RowsInvert (roundRows .encrypt RK) (roundRows .decrypt RK).reverse := by
  have h := (List.forall₂_reverse_iff.2 (decrypt_invert_encrypt RK)).flip
  rw [List.reverse_reverse] at h
  exact h.imp fun _ _ => rowsInvert_comm

theorem afterRows_concat (rows : List AesRow) (row : AesRow) (S : AesState) :
    afterRows (rows ++ [row]) S = row.apply (afterRows rows S) := by
  simp [afterRows]

/-- After the rows `qs` backwards, the first `k` inverse rows undo the last `k` of them. -/
theorem afterRows_take_undoes {ps qs : List AesRow} (h : List.Forall₂ RowsInvert ps qs) (k : Nat) (S : AesState) :
    afterRows (ps.take k) (afterRows qs.reverse S) = afterRows (qs.drop k).reverse S := by
  induction h generalizing k with
  | nil => rw [List.take_nil, List.drop_nil]; rfl
  | @cons p q ps qs hpq _ ih =>
    cases k with
    | zero => rfl
    | succ k =>
      rw [List.reverse_cons, afterRows_concat]
      exact (congrArg (afterRows (ps.take k)) (hpq _).1).trans (ih k)

theorem afterRows_undoes {ps qs : List AesRow} (h : List.Forall₂ RowsInvert ps qs.reverse) (S : AesState) :
    afterRows ps (afterRows qs S) = S := by
  have hall := afterRows_take_undoes h ps.length S
  rw [List.take_length, h.length_eq, List.drop_length, List.reverse_reverse] at hall
  exact hall

theorem encryptState_eq_afterRows (B K : Block) :
    encryptState B K = afterRows (roundRows .encrypt (roundKeys K)) (blockToState B) :=
  (afterRows_roundRows .encrypt B K).symm

theorem decryptState_eq_afterRows (B K : Block) :
    decryptState B K = afterRows (roundRows .decrypt (roundKeys K)) (blockToState B) :=
  (afterRows_roundRows .decrypt B K).symm

/-- Settles O51: the rows of either direction undo those of the other. -/
theorem aesRoundTrip : Obligations.AesRoundTrip := by
  refine ⟨fun B K => ?_, fun B K => ?_⟩ <;>
    rw [aesEncrypt, aesDecrypt, encryptState_eq_afterRows, decryptState_eq_afterRows, blockToState_stateToBlock]
  · rw [afterRows_undoes (decrypt_invert_encrypt _), stateToBlock_blockToState]
  · rw [afterRows_undoes (encrypt_invert_decrypt _), stateToBlock_blockToState]

/-- Record `k` of the fold is row `k` on the State after the rows before it. -/
theorem getElem?_foldAes (rows : List AesRow) (S : AesState) (k : Nat) :
    (foldAes rows S)[k]? = rows[k]?.map fun row => rowRecord row (afterRows (rows.take k) S) := by
  induction rows generalizing S k with
  | nil => rfl
  | cons row rows ih =>
    cases k with
    | zero => rfl
    | succ k => exact ih (row.apply S) k

theorem length_roundRows (d : Dir) (RK : Vector AesState 11) : (roundRows d RK).length = 40 := by cases d <;> rfl

theorem afterRows_take_succ {rows : List AesRow} {k : Nat} {row : AesRow} (h : rows[k]? = some row) (S : AesState) :
    afterRows (rows.take (k + 1)) S = row.apply (afterRows (rows.take k) S) := by
  rw [List.take_add_one, h, Option.toList_some, afterRows_concat]

/-- Step `k + 2` of an AES trace goes from the State after `k` rows of the rounds to the one after `k + 1`. -/
theorem aesTrace_step (d : Dir) (B K : Block) {k : Nat} (hk : k < 40) :
    ∃ r, (aesTrace d B K)[k + 2]? = some r ∧
      r.before = stateToBlock (afterRows ((roundRows d (roundKeys K)).take k) (blockToState B)) ∧
      r.after = stateToBlock (afterRows ((roundRows d (roundKeys K)).take (k + 1)) (blockToState B)) := by
  obtain ⟨row, hrow⟩ : ∃ row, (roundRows d (roundKeys K))[k]? = some row :=
    ⟨_, List.getElem?_eq_getElem (by rw [length_roundRows]; exact hk)⟩
  refine ⟨rowRecord row (afterRows ((roundRows d (roundKeys K)).take k) (blockToState B)), ?_, rfl, ?_⟩
  · rw [aesTrace_eq, List.getElem?_cons_succ, List.getElem?_cons_succ, getElem?_foldAes, hrow, Option.map_some]
  · rw [afterRows_take_succ hrow]
    rfl

/-- The first `k` rows of decryption bring the ciphertext back to the State after `40 - k` rows of encryption. -/
theorem afterRows_take_decrypt (B K : Block) (k : Nat) :
    afterRows ((roundRows .decrypt (roundKeys K)).take k) (blockToState (aesEncrypt B K)) =
      afterRows ((roundRows .encrypt (roundKeys K)).take (40 - k)) (blockToState B) := by
  have h := afterRows_take_undoes (decrypt_invert_encrypt (roundKeys K)) k (blockToState B)
  rw [List.reverse_reverse, List.drop_reverse, List.reverse_reverse, length_roundRows] at h
  rw [aesEncrypt, blockToState_stateToBlock, encryptState_eq_afterRows, h]

/-- Settles O53: each row of decryption goes back over the row of encryption it inverts. -/
theorem aesDecryptWalksEncryptBackwards : Obligations.AesDecryptWalksEncryptBackwards := by
  intro B K i hlo hhi
  obtain ⟨k, rfl⟩ := Nat.exists_eq_add_of_le' hlo
  have hk : k < 40 := by omega
  have hindex : 43 - (k + 2) = 39 - k + 2 := by omega
  have hsucc : 40 - k = 39 - k + 1 := by omega
  obtain ⟨r, hr, hrBefore, hrAfter⟩ := aesTrace_step .decrypt (aesEncrypt B K) K hk
  obtain ⟨e, he, heBefore, heAfter⟩ := aesTrace_step .encrypt B K (k := 39 - k) (by omega)
  refine ⟨r, e, hr, hindex ▸ he, ?_, ?_⟩
  · rw [hrAfter, heBefore, afterRows_take_decrypt, Nat.sub_add_eq, Nat.sub_right_comm]
  · rw [hrBefore, heAfter, afterRows_take_decrypt, hsucc]

end Sys2Proof.Proofs

/-! SUPPORT. The DES primitives as functions (44_des_primitives.md): permutation tables that undo each other, the bits
of the key halves and subkeys, the S-box outputs bit by bit, and the round across a swap. -/

namespace Sys2Proof.Proofs

open Sys2Proof Sys2Proof.Machine Sys2Proof.Claim

/-! ### Permutation tables (R190 to R192) -/

/-- Every entry of `T`, read through `U`, names its own position. -/
def TableInverts (n m : Nat) (T U : List Nat) : Prop :=
  ∀ j, 1 ≤ j → j ≤ n →
    1 ≤ T.getD (j - 1) 0 ∧ T.getD (j - 1) 0 ≤ m ∧ U.getD (T.getD (j - 1) 0 - 1) 0 = j

theorem permute_permute {n m : Nat} {T U : List Nat} (h : TableInverts n m T U) (V : BitVec n) :
    permute n T (permute m U V) = V := by
  apply bits_ext
  intro j h1 hn
  obtain ⟨hlo, hhi, hback⟩ := h j h1 hn
  rw [bitAt_permute n T _ j h1 hn, bitAt_permute m U V _ hlo hhi, hback]

theorem fp_inverts_ip : TableInverts 64 64 FP IP := by unfold TableInverts; decide

theorem ip_inverts_fp : TableInverts 64 64 IP FP := by unfold TableInverts; decide

theorem finalPerm_initialPerm (V : BitVec 64) : finalPerm (initialPerm V) = V := permute_permute fp_inverts_ip V

theorem initialPerm_finalPerm (V : BitVec 64) : initialPerm (finalPerm V) = V := permute_permute ip_inverts_fp V

/-- Settles O10: each table, read through the other, names its own position. -/
theorem finalPermutationInvertsInitial : Obligations.FinalPermutationInvertsInitial :=
  ⟨rfl, fun j h1 hj => (ip_inverts_fp j h1 hj).2.2, finalPerm_initialPerm, initialPerm_finalPerm⟩

/-! ### The parity bits (R195) -/

/-- A permutation sees its argument at the table's positions only. -/
theorem permute_congr {n m : Nat} {T : List Nat} {V W : BitVec n} (hT : T.length = m)
    (h : ∀ p ∈ T, bitAt V p = bitAt W p) : permute m T V = permute m T W := by
  apply bits_ext
  intro j h1 hj
  have hlt : j - 1 < T.length := by omega
  rw [bitAt_permute m T V j h1 hj, bitAt_permute m T W j h1 hj, List.getD_eq_getElem _ _ hlt]
  exact h _ (List.getElem_mem hlt)

theorem pc1_positions : ∀ p ∈ PC1, 1 ≤ p ∧ p ≤ 64 ∧ p % 8 ≠ 0 := by decide

theorem desHalves_congr {K K' : BitVec 64} (h : permute 56 PC1 K = permute 56 PC1 K') (i : Nat) :
    desHalves K i = desHalves K' i := by
  induction i with
  | zero => simp only [desHalves, h]
  | succ i ih => simp only [desHalves, ih]

theorem desKeySchedule_congr {K K' : BitVec 64} (h : permute 56 PC1 K = permute 56 PC1 K') :
    desKeySchedule K = desKeySchedule K' := by
  simp only [desKeySchedule, subkey, desHalves_congr h]

theorem desCrypt_congr {K K' : BitVec 64} (h : desKeySchedule K = desKeySchedule K') (d : Dir) (block : BitVec 64) :
    desCrypt d block K = desCrypt d block K' := by
  simp only [desCrypt, h]

/-- Settles O11: the key enters through PC1, which selects no parity bit. -/
theorem parityBitsHaveNoEffect : Obligations.ParityBitsHaveNoEffect := by
  refine ⟨rfl, by decide, pc1_positions, fun K K' hagree => ?_⟩
  have hselect : permute 56 PC1 K = permute 56 PC1 K' := by
    refine permute_congr rfl fun p hp => ?_
    obtain ⟨hlo, hhi, hparity⟩ := pc1_positions p hp
    exact hagree p hlo hhi hparity
  have hschedule := desKeySchedule_congr hselect
  exact ⟨hschedule, desCrypt_congr hschedule⟩

/-! ### The subkeys bit by bit (R205) -/

/-- A slice of `w` bits that ends `lo` bits before the last position. -/
theorem bitAt_extractLsb' {n lo w : Nat} (V : BitVec n) {p : Nat} (hw : lo + w ≤ n) (h1 : 1 ≤ p) (hp : p ≤ w) :
    bitAt (V.extractLsb' lo w) p = bitAt V (n - (lo + w) + p) := by
  have hin : p - 1 < w := by omega
  have hinV : n - (lo + w) + p - 1 < n := by omega
  have hslice : w - 1 - (p - 1) < w := by omega
  have hpos : lo + (w - 1 - (p - 1)) = n - 1 - (n - (lo + w) + p - 1) := by omega
  simp [bitAt, BitVec.getMsbD_eq_getLsbD, hin, hinV, hslice, hpos]

theorem bitAt_rotl (V : BitVec 28) (n : Nat) {p : Nat} (h1 : 1 ≤ p) (hp : p ≤ 28) :
    bitAt (rotl V n) p = bitAt V ((p - 1 + n) % 28 + 1) := by
  have hin : p - 1 < 28 := by omega
  simp [bitAt, rotl, BitVec.getMsbD_rotateLeft, hin, Nat.add_comm]

theorem bitAt_append {n m : Nat} (x : BitVec n) (y : BitVec m) {p : Nat} (h1 : 1 ≤ p) :
    bitAt (x ++ y) p = if p ≤ n then bitAt x p else bitAt y (p - n) := by
  split
  next hp => exact bitAt_append_left x y h1 hp
  next hp =>
    obtain ⟨q, rfl⟩ := Nat.exists_eq_add_of_le (Nat.le_of_not_le hp)
    rw [bitAt_append_right x y (by omega), Nat.add_sub_cancel_left]

theorem bitAt_desHalves_zero (K : BitVec 64) {p : Nat} (h1 : 1 ≤ p) (hp : p ≤ 28) :
    bitAt (desHalves K 0).1 p = bitAt K (PC1.getD (p - 1) 0) ∧
      bitAt (desHalves K 0).2 p = bitAt K (PC1.getD (p + 27) 0) := by
  constructor
  · rw [desHalves, bitAt_extractLsb' _ (by decide) h1 hp, bitAt_permute 56 PC1 K _ (by omega) (by omega)]
    simp
  · rw [desHalves, bitAt_extractLsb' _ (by decide) h1 hp, bitAt_permute 56 PC1 K _ (by omega) (by omega)]
    have hpos : 56 - (0 + 28) + p - 1 = p + 27 := by omega
    rw [hpos]

theorem bitAt_desHalves_succ (K : BitVec 64) (i : Nat) {p : Nat} (h1 : 1 ≤ p) (hp : p ≤ 28) :
    bitAt (desHalves K (i + 1)).1 p = bitAt (desHalves K i).1 ((p - 1 + SHIFTS.getD i 0) % 28 + 1) ∧
      bitAt (desHalves K (i + 1)).2 p = bitAt (desHalves K i).2 ((p - 1 + SHIFTS.getD i 0) % 28 + 1) :=
  ⟨bitAt_rotl _ _ h1 hp, bitAt_rotl _ _ h1 hp⟩

theorem one_le_pc2 : ∀ j, 1 ≤ j → j ≤ 48 → 1 ≤ PC2.getD (j - 1) 0 := by decide

theorem bitAt_subkey (K : BitVec 64) (k : Nat) {j : Nat} (h1 : 1 ≤ j) (hj : j ≤ 48) :
    bitAt (subkey K k) j =
      if PC2.getD (j - 1) 0 ≤ 28 then bitAt (desHalves K (k + 1)).1 (PC2.getD (j - 1) 0)
      else bitAt (desHalves K (k + 1)).2 (PC2.getD (j - 1) 0 - 28) := by
  rw [subkey, bitAt_permute 48 PC2 _ j h1 hj, bitAt_append _ _ (one_le_pc2 j h1 hj)]

/-- Settles O12: the halves are those of the model's schedule; the example is evaluated. -/
theorem desScheduleRotatesAndSelects : Obligations.DesScheduleRotatesAndSelects := by
  refine ⟨rfl, rfl, rfl, fun K => ⟨fun i => (desHalves K i).1, fun i => (desHalves K i).2,
    fun p => bitAt_desHalves_zero K, fun i p _ => bitAt_desHalves_succ K i, fun k j h1 hj => ?_, ?_⟩,
    by decide +kernel⟩
  · exact (congrArg (bitAt · j) (getElem_desKeySchedule K k k.isLt)).trans (bitAt_subkey K k h1 hj)
  · rintro rfl
    decide +kernel

/-! ### The Feistel function (R206, R199) -/

theorem bitAt_sixBitGroup (x : BitVec 48) {g i : Nat} (hg : g < 8) (h1 : 1 ≤ i) (hi : i ≤ 6) :
    bitAt (sixBitGroup x (g + 1)) i = bitAt x (6 * g + i) := by
  rw [sixBitGroup, bitAt_extractLsb' x (by omega) h1 hi]
  congr 1
  omega

/-- The S-box outputs in order: the appends before the group's box are passed one by one. -/
theorem bitAt_feistel_sb (R : BitVec 32) (k : BitVec 48) {g i : Nat} (hg : g < 8) (h1 : 1 ≤ i) (hi : i ≤ 4) :
    bitAt (feistel R k).sb (4 * g + i) = bitAt (boxOut (feistel R k).x (g + 1)) i := by
  rw [feistel]
  interval_cases g <;>
    simp (disch := omega) only [bitAt_append_left, bitAt_append_right, Nat.mul_zero, Nat.zero_add]

/-- The four bits of a nibble, first bit most significant. -/
theorem nibble_eq_sum_bits : ∀ v : BitVec 4,
    8 * (bitAt v 1).toNat + 4 * (bitAt v 2).toNat + 2 * (bitAt v 3).toNat + (bitAt v 4).toNat = v.toNat := by decide

/-- What holds of every element of a list and of the default holds at every index. -/
theorem getD_of_forall {α : Type} {p : α → Prop} {l : List α} {d : α} (h : ∀ a ∈ l, p a) (hd : p d) (i : Nat) :
    p (l.getD i d) := by
  rcases Nat.lt_or_ge i l.length with hi | hi
  · rw [List.getD_eq_getElem _ _ hi]
    exact h _ (List.getElem_mem hi)
  · rwa [List.getD_eq_default _ _ hi]

theorem sbox_entry_lt (g row col : Nat) : (((SB.getD g []).getD row []).getD col 0) < 16 := by
  have hall : ∀ box ∈ SB, ∀ r ∈ box, ∀ entry ∈ r, entry < 16 := by decide
  have hbox : ∀ r ∈ SB.getD g [], ∀ entry ∈ r, entry < 16 := getD_of_forall hall (by simp) g
  exact getD_of_forall (getD_of_forall hbox (by simp) row) (by decide) col

/-- R199 without the truncation to four bits: every entry of a box fits. -/
theorem toNat_sboxLookup (g : Nat) (grp : BitVec 6) :
    (sboxLookup g grp).toNat =
      ((SB.getD (g - 1) []).getD (2 * (bitAt grp 1).toNat + (bitAt grp 6).toNat) []).getD
        (8 * (bitAt grp 2).toNat + 4 * (bitAt grp 3).toNat + 2 * (bitAt grp 4).toNat + (bitAt grp 5).toNat) 0 := by
  rw [sboxLookup, BitVec.toNat_ofNat]
  exact Nat.mod_eq_of_lt (sbox_entry_lt _ _ _)

/-- The bits of group `g` select the entry whose four bits are the group's output, groups counted from 0. -/
theorem feistel_sb_group (R : BitVec 32) (k : BitVec 48) {g : Nat} (hg : g < 8) :
    8 * (bitAt (feistel R k).sb (4 * g + 1)).toNat + 4 * (bitAt (feistel R k).sb (4 * g + 2)).toNat +
        2 * (bitAt (feistel R k).sb (4 * g + 3)).toNat + (bitAt (feistel R k).sb (4 * g + 4)).toNat =
      ((SB.getD g []).getD
        (2 * (bitAt (feistel R k).x (6 * g + 1)).toNat + (bitAt (feistel R k).x (6 * g + 6)).toNat) []).getD
        (8 * (bitAt (feistel R k).x (6 * g + 2)).toNat + 4 * (bitAt (feistel R k).x (6 * g + 3)).toNat +
          2 * (bitAt (feistel R k).x (6 * g + 4)).toNat + (bitAt (feistel R k).x (6 * g + 5)).toNat) 0 := by
  have hout := nibble_eq_sum_bits (boxOut (feistel R k).x (g + 1))
  rw [boxOut, toNat_sboxLookup, ← boxOut] at hout
  simpa only [bitAt_feistel_sb R k hg, bitAt_sixBitGroup _ hg, Nat.one_le_ofNat, Nat.le_refl, Nat.reduceLeDiff,
    Nat.add_sub_cancel] using hout

/-- Settles O13, group by group. -/
theorem feistelExpandsSubstitutesPermutes : Obligations.FeistelExpandsSubstitutesPermutes := by
  refine ⟨rfl, rfl, rfl, rfl, rfl, rfl, rfl, rfl, rfl, rfl, rfl,
    fun R k => ⟨bitAt_permute 48 E R, rfl, fun g h1 hg => ?_, bitAt_permute 32 P _⟩,
    by decide, by decide, by decide, by decide +kernel⟩
  obtain ⟨g, rfl⟩ := Nat.exists_eq_add_of_le' h1
  exact feistel_sb_group R k (Nat.lt_of_succ_le hg)

/-! ### The round across a swap (R207, R208) -/

theorem leftHalf_desRound (V : BitVec 64) (k : BitVec 48) : leftHalf (desRound V k) = rightHalf V :=
  leftHalf_append _ _

theorem rightHalf_desRound (V : BitVec 64) (k : BitVec 48) :
    rightHalf (desRound V k) = leftHalf V ^^^ (feistel (rightHalf V) k).fo :=
  rightHalf_append _ _

@[simp] theorem leftHalf_swapHalves (V : BitVec 64) : leftHalf (swapHalves V) = rightHalf V := leftHalf_append _ _

@[simp] theorem rightHalf_swapHalves (V : BitVec 64) : rightHalf (swapHalves V) = leftHalf V := rightHalf_append _ _

theorem halves_ext {V W : BitVec 64} (hL : leftHalf V = leftHalf W) (hR : rightHalf V = rightHalf W) : V = W := by
  rw [← halves_append V, hL, hR, halves_append]

/-- The round after the swap computes the same Feistel output, which the XOR cancels. -/
theorem desRound_swap_desRound (V : BitVec 64) (k : BitVec 48) :
    swapHalves (desRound (swapHalves (desRound V k)) k) = V := by
  apply halves_ext
  · rw [leftHalf_swapHalves, rightHalf_desRound, leftHalf_swapHalves, rightHalf_swapHalves, leftHalf_desRound,
      rightHalf_desRound, BitVec.xor_assoc, BitVec.xor_self, BitVec.xor_zero]
  · rw [rightHalf_swapHalves, leftHalf_desRound, rightHalf_swapHalves, leftHalf_desRound]

/-- Settles O14: the two halves of the round, and the cancellation across the swap. -/
theorem desRoundUndoesItselfAcrossSwap : Obligations.DesRoundUndoesItselfAcrossSwap :=
  ⟨fun V k => ⟨leftHalf_desRound V k, rightHalf_desRound V k⟩, desRound_swap_desRound⟩

end Sys2Proof.Proofs

/-! SUPPORT. The DES micro-ops (45_des_sequences.md R222 to R226): the words they encode to, and for each micro-op its
effect on `V` and `SK` in the frame of R104. -/

namespace Sys2Proof.Proofs

open Sys2Proof Sys2Proof.Machine Sys2Proof.Claim

/-! ### The words of the DES micro-ops (R90, R91) -/

theorem encode_dinput (dir : Dir) : encode (.dinput dir) = .u (byDir dir 0x8000 0xC000) := by cases dir <;> rfl

theorem encode_dip (dir : Dir) : encode (.dip dir) = .u (byDir dir 0x8100 0xC100) := by cases dir <;> rfl

theorem encode_dswap (dir : Dir) : encode (.dswap dir) = .u (byDir dir 0x8300 0xC300) := by cases dir <;> rfl

theorem encode_dfp (dir : Dir) : encode (.dfp dir) = .u (byDir dir 0x8400 0xC400) := by cases dir <;> rfl

theorem encode_dround (dir : Dir) (round : BitVec 5) :
    encode (.dround dir round) = .u (byDir dir 0x8200 0xC200 + round.setWidth 16) := by
  cases dir with
  | encrypt => exact encoded_eq_add .des .encrypt 2 round rfl
  | decrypt => exact encoded_eq_add .des .decrypt 2 round rfl

theorem uopOf_of_encode {i : Instr} {w : UWord} (h : encode i = .u w) : uopOf i = w := by rw [uopOf, h]

/-! ### The frame of a DES micro-op (R104) -/

/-- A legal micro-op completes; `microStep` says what it makes of the working fields and what it records. -/
theorem exec_micro_effect {i : Instr} (hw : i.wf = true) (hm : i.isMicro = true) (s : State) :
    ∃ t, exec i s = .next t ∧ workingOf t = (microStep s.MSG s.KEY (workingOf s) i).1 ∧ InputsKept s t ∧
      Recorded s t (microStep s.MSG s.KEY (workingOf s) i).2 :=
  ⟨microResult s i, exec_eq_microResult hw hm s, workingOf_microResult s i, inputsKept_microResult s i,
    recorded_microResult s i⟩

/-- A legal micro-op with the word `w` that only applies `g` to `V` keeps the rest and records no auxiliary data. -/
theorem desStep_effect {i : Instr} {w : UWord} {g : BitVec 64 → BitVec 64} (hw : i.wf = true) (hm : i.isMicro = true)
    (hword : encode i = .u w) (hstep : ∀ M K v, microStep M K v i = desStep i g v) (s : State) :
    ∃ t, exec i s = .next t ∧ t.V = g s.V ∧ t.S = s.S ∧ t.RK = s.RK ∧ t.SK = s.SK ∧ InputsKept s t ∧
      Recorded s t (desRecord w s.V t.V 0 0 0 0 0) := by
  obtain ⟨t, hexec, hworking, kept, hrec⟩ := exec_micro_effect hw hm s
  rw [hstep, desStep, uopOf_of_encode hword] at hrec
  rw [hstep] at hworking
  obtain ⟨hS, hV, hRK, hSK⟩ := Working.mk.inj hworking
  exact ⟨t, hexec, hV, hS, hRK, hSK, kept, hV ▸ hrec⟩

/-! ### Loading the block and the subkeys (R222) -/

theorem byteOf_lowBytes (B : Block) {i : Nat} (hi : i < 8) : byteOf (lowBytes B) i = byteOf B i := by
  rw [← desImage_bitsOf8, byteOf_desImage _ hi, packedByte_bitsOf8 B hi]

theorem byteOf_lowBytes_high (B : Block) {i : Nat} (hlo : 8 ≤ i) (hhi : i < 16) : byteOf (lowBytes B) i = 0 := by
  rw [byteOf_eq _ _ hhi, lowBytes, getElem_buildBlock _ _ hhi, if_neg (Nat.not_lt.2 hlo)]
  rfl

/-- DINPUT loads `V` and the subkeys from bytes 0..7 of `MSG` and `KEY`. -/
theorem dinput_effect (dir : Dir) (s : State) :
    ∃ t, exec (.dinput dir) s = .next t ∧ t.V = bitsOf8 s.MSG ∧ t.SK = desKeySchedule (bitsOf8 s.KEY) ∧ t.S = s.S ∧
      t.RK = s.RK ∧ InputsKept s t ∧
      Recorded s t (aesRecord (byDir dir 0x8000 0xC000) (lowBytes s.MSG) (lowBytes s.MSG) zeroBlock) := by
  obtain ⟨t, hexec, hworking, kept, hrec⟩ := exec_micro_effect (i := .dinput dir) rfl rfl s
  rw [microStep, plainRecord, uopOf_of_encode (encode_dinput dir)] at hrec
  obtain ⟨hS, hV, hRK, hSK⟩ := Working.mk.inj hworking
  exact ⟨t, hexec, hV, hSK, hS, hRK, kept, hrec⟩

/-- What DINPUT loads is a function of the bytes of `MSG` and `KEY` that DES reads. -/
theorem dinput_congr {dir : Dir} {s s' t t' : State} (hM : AgreeFor .des s.MSG s'.MSG) (hK : AgreeFor .des s.KEY s'.KEY)
    (h : exec (.dinput dir) s = .next t) (h' : exec (.dinput dir) s' = .next t') : t.V = t'.V ∧ t.SK = t'.SK := by
  obtain ⟨u, hexec, hV, hSK, -⟩ := dinput_effect dir s
  obtain ⟨u', hexec', hV', hSK', -⟩ := dinput_effect dir s'
  obtain rfl : u = t := by simpa [hexec] using h
  obtain rfl : u' = t' := by simpa [hexec'] using h'
  rw [hV, hV', hSK, hSK', bitsOf8_eq_of_agreeFor_des hM, bitsOf8_eq_of_agreeFor_des hK]
  exact ⟨rfl, rfl⟩

/-- Settles O26: what DINPUT loads, bit by bit, in its frame; the printed vector is evaluated. -/
theorem dinputLoadsBlockAndSubkeys : Obligations.DinputLoadsBlockAndSubkeys := by
  refine ⟨rfl, rfl, onlyAt_rom rfl, onlyAt_rom rfl, fun dir s => ?_, fun dir s s' t t' hagree =>
    dinput_congr (fun i hi => (hagree i hi).1) (fun i hi => (hagree i hi).2), by decide +kernel⟩
  obtain ⟨t, hexec, hV, hSK, hS, hRK, kept, hrec⟩ := dinput_effect dir s
  exact ⟨t, hexec, hV ▸ fun _ _ => bitAt_bitsOf8 s.MSG, ⟨bitsOf8 s.KEY, fun _ _ => bitAt_bitsOf8 s.KEY, hSK⟩, hS, hRK,
    kept, lowBytes s.MSG, fun _ => byteOf_lowBytes s.MSG, fun _ => byteOf_lowBytes_high s.MSG, hrec⟩

/-! ### The initial and the final permutation (R223, R226) -/

/-- Settles O27: each table bit by bit in the frame of a DES micro-op; the fixed vectors and the examples are
evaluated. -/
theorem dipAndDfpPermuteTheVector : Obligations.DipAndDfpPermuteTheVector := by
  refine ⟨rfl, rfl, rfl, rfl, onlyAt_rom rfl, onlyAt_rom rfl, onlyAt_rom rfl, onlyAt_rom rfl, length_rom .des,
    fun dir s => ?_, fun dir s => ?_, by decide +kernel⟩
  · obtain ⟨t, hexec, hV, frame⟩ := desStep_effect rfl rfl (encode_dip dir) (fun _ _ _ => rfl) s
    exact ⟨t, hexec, hV ▸ bitAt_permute 64 IP s.V, frame⟩
  · obtain ⟨t, hexec, hV, frame⟩ := desStep_effect rfl rfl (encode_dfp dir) (fun _ _ _ => rfl) s
    exact ⟨t, hexec, hV ▸ bitAt_permute 64 FP s.V, frame⟩

/-! ### The round (R224) -/

/-- The words of the rounds in the programs (R102, R103). -/
theorem rom_dround : ∀ r, 1 ≤ r → r ≤ 16 →
    (rom .des .encrypt)[r + 1]? = some (0x8200 + BitVec.ofNat 16 r) ∧
    (rom .des .decrypt)[r + 1]? = some (0xC200 + BitVec.ofNat 16 r) := by decide

/-- Settles O28: the index of R93 is that of a subkey, with which the round runs; the examples are evaluated. -/
theorem droundUpdatesAndRecords : Obligations.DroundUpdatesAndRecords := by
  refine ⟨fun round => ⟨encode_dround .encrypt round, encode_dround .decrypt round⟩, fun r hlo hhi => ?_,
    fun dir round s hlo hhi => ?_, by decide +kernel⟩
  · obtain ⟨hencrypt, hdecrypt⟩ := rom_dround r hlo hhi
    exact ⟨onlyAt_rom hencrypt, onlyAt_rom hdecrypt⟩
  have hwf : (Instr.dround dir round).wf = true := roundIn_iff.2 ⟨hlo, hhi⟩
  obtain ⟨k, hk⟩ : ∃ k : Fin 16, k.val = droundKidx dir round :=
    ⟨⟨droundKidx dir round, Nat.lt_succ_of_le (droundKidx_le hwf)⟩, rfl⟩
  have hkidx : droundKidx dir round = byDir dir (round.toNat - 1) (16 - round.toNat) := by cases dir <;> rfl
  have hSKk : skAt (workingOf s).SK (droundKidx dir round) = s.SK[k] := hk ▸ readSK_eq s k
  obtain ⟨t, hexec, hworking, kept, hrec⟩ := exec_micro_effect hwf rfl s
  rw [microStep, desRoundStep, hSKk] at hworking hrec
  rw [uopOf_of_encode (encode_dround dir round)] at hrec
  obtain ⟨hS, hV, hRK, hSK⟩ := Working.mk.inj hworking
  exact ⟨k, t, hexec, hk.trans hkidx, hV ▸ leftHalf_desRound s.V s.SK[k], hV ▸ rightHalf_desRound s.V s.SK[k], hS, hRK,
    hSK, kept, hV ▸ hrec⟩

/-! ### The swap (R225) -/

@[simp] theorem swapHalves_swapHalves (V : BitVec 64) : swapHalves (swapHalves V) = V :=
  halves_ext (by simp) (by simp)

theorem swapHalves_of_equal_halves {V : BitVec 64} (h : leftHalf V = rightHalf V) : swapHalves V = V :=
  halves_ext (by simp [h]) (by simp [h])

/-- Settles O29: the halves of a swapped vector, in the frame of a DES micro-op. -/
theorem dswapExchangesTheHalves : Obligations.DswapExchangesTheHalves := by
  refine ⟨rfl, rfl, onlyAt_rom rfl, onlyAt_rom rfl, fun dir s => ?_, fun V => swapHalves_of_equal_halves,
    swapHalves_swapHalves, by decide +kernel⟩
  obtain ⟨t, hexec, hV, frame⟩ := desStep_effect rfl rfl (encode_dswap dir) (fun _ _ _ => rfl) s
  exact ⟨t, hexec, hV ▸ leftHalf_swapHalves s.V, hV ▸ rightHalf_swapHalves s.V, frame⟩

end Sys2Proof.Proofs

/-! SUPPORT. DES runs (45_des_sequences.md R220, R221, R227) and the round trips (R229): the vector after each round,
the subkeys in order of use, and the trace record by record. -/

namespace Sys2Proof.Proofs

open Sys2Proof Sys2Proof.Machine Sys2Proof.Claim

/-! ### The run (R220, R221, R227) -/

theorem byteOf_desImage_high (V : BitVec 64) {i : Nat} (hlo : 8 ≤ i) (hhi : i < 16) : byteOf (desImage V) i = 0 := by
  rw [← bitsOf8_desImage V, desImage_bitsOf8, byteOf_lowBytes_high _ hlo hhi]

/-- Settles O50: the run of the DES program, which records the table and leaves the result of the big-step function. -/
theorem desRunComputesItsTrace : Obligations.DesRunComputesItsTrace := by
  intro s hb ha hpc hturns
  obtain ⟨t, hruns, ran⟩ := runs_program hb ha hpc hturns
  have hworking := ran.working
  rw [workingAfter_des] at hworking
  obtain ⟨hS, hV, hRK, hSK⟩ := Working.mk.inj hworking
  have hOUT : t.OUT = desImage t.V := ran.out
  have hbits : bitsOf8 t.OUT = t.V := by rw [hOUT, bitsOf8_desImage]
  have hpc20 : t.pc = 20 := BitVec.eq_of_toNat_eq ran.pc
  refine ⟨t, hruns, ran.phase, hpc20, ?_, hbits.trans hV, fun i hlo hhi => ?_, hbits.symm, hSK, ran.trace, ran.others,
    hS, hRK, ran.kept⟩
  · rw [regValue_nsteps, nstepsByte, ran.phase, hpc20]
    rfl
  · rw [hOUT, byteOf_desImage_high _ hlo hhi]

/-! ### The rounds with their subkeys in order of use (R220) -/

/-- The vector after the rounds with the given subkeys. -/
def afterKeys (ks : List (BitVec 48)) (V : BitVec 64) : BitVec 64 := ks.foldl desRound V

/-- The subkeys of a run in order of use (R220). -/
def desRunKeys (d : Dir) (K : BitVec 64) : List (BitVec 48) := desRounds.map (desKeyOfRound (desKeySchedule K) d)

/-- The vector of a run after `n` rounds. -/
def desVector (d : Dir) (B K : BitVec 64) (n : Nat) : BitVec 64 :=
  afterKeys ((desRunKeys d K).take n) (initialPerm B)

theorem length_desRunKeys (d : Dir) (K : BitVec 64) : (desRunKeys d K).length = 16 := List.length_map _

theorem exists_desRunKeys (d : Dir) (K : BitVec 64) {n : Nat} (hn : n < 16) : ∃ k, (desRunKeys d K)[n]? = some k :=
  ⟨_, List.getElem?_eq_getElem (by rw [length_desRunKeys]; exact hn)⟩

/-- The directions use the subkeys in opposite orders. -/
theorem desRunKeys_decrypt (K : BitVec 64) : desRunKeys .decrypt K = (desRunKeys .encrypt K).reverse := rfl

theorem desRunKeys_encrypt (K : BitVec 64) : desRunKeys .encrypt K = (desRunKeys .decrypt K).reverse := by
  rw [desRunKeys_decrypt, List.reverse_reverse]

theorem getElem?_desRunKeys_decrypt (K : BitVec 64) {n : Nat} (hn : n < 16) :
    (desRunKeys .decrypt K)[n]? = (desRunKeys .encrypt K)[15 - n]? := by
  rw [desRunKeys_decrypt, List.getElem?_reverse (by rw [length_desRunKeys]; exact hn), length_desRunKeys]

theorem afterKeys_append (ks ls : List (BitVec 48)) (V : BitVec 64) :
    afterKeys (ks ++ ls) V = afterKeys ls (afterKeys ks V) := List.foldl_append

theorem desVector_succ {d : Dir} {B K : BitVec 64} {n : Nat} {k : BitVec 48} (h : (desRunKeys d K)[n]? = some k) :
    desVector d B K (n + 1) = desRound (desVector d B K n) k := by
  rw [desVector, List.take_add_one, h, Option.toList_some, afterKeys_append]
  rfl

theorem desCrypt_eq (d : Dir) (B K : BitVec 64) : desCrypt d B K = finalPerm (swapHalves (desVector d B K 16)) := rfl

/-! ### Decryption undoes encryption round by round (R229) -/

/-- One round undone across the swap, as R208 has it. -/
theorem desRound_swapHalves_desRound (V : BitVec 64) (k : BitVec 48) :
    desRound (swapHalves (desRound V k)) k = swapHalves V := by
  rw [← swapHalves_swapHalves (desRound _ k), desRound_swap_desRound]

/-- The rounds with the same subkeys backwards undo the rounds across the swap. -/
theorem afterKeys_reverse_undoes (ks : List (BitVec 48)) (V : BitVec 64) :
    afterKeys ks.reverse (swapHalves (afterKeys ks V)) = swapHalves V := by
  induction ks generalizing V with
  | nil => rfl
  | cons k ks ih =>
    have hks : afterKeys ks.reverse (swapHalves (afterKeys (k :: ks) V)) = swapHalves (desRound V k) := ih _
    rw [List.reverse_cons, afterKeys_append, hks]
    exact desRound_swapHalves_desRound V k

/-- A run with the subkeys of another backwards, from the other's result, meets the other's vectors backwards, halves
exchanged. -/
theorem desVector_backwards {d d' : Dir} {K : BitVec 64} (hkeys : desRunKeys d' K = (desRunKeys d K).reverse)
    (B : BitVec 64) (n : Nat) : desVector d' (desCrypt d B K) K n = swapHalves (desVector d B K (16 - n)) := by
  have hall : desVector d B K 16 = afterKeys ((desRunKeys d K).drop (16 - n)) (desVector d B K (16 - n)) := by
    rw [desVector, desVector, ← afterKeys_append, List.take_append_drop,
      List.take_of_length_le (length_desRunKeys d K).le]
  rw [desVector, hkeys, List.take_reverse, length_desRunKeys, desCrypt_eq, initialPerm_finalPerm, hall,
    afterKeys_reverse_undoes]

theorem desCrypt_undoes {d d' : Dir} {K : BitVec 64} (hkeys : desRunKeys d' K = (desRunKeys d K).reverse)
    (B : BitVec 64) : desCrypt d' (desCrypt d B K) K = B := by
  have hstart : desVector d B K 0 = initialPerm B := rfl
  rw [desCrypt_eq d', desVector_backwards hkeys, Nat.sub_self, hstart, swapHalves_swapHalves, finalPerm_initialPerm]

/-- Settles O52: either direction uses the subkeys of the other backwards. -/
theorem desRoundTrip : Obligations.DesRoundTrip :=
  ⟨fun B K => desCrypt_undoes (desRunKeys_decrypt K) B, fun B K => desCrypt_undoes (desRunKeys_encrypt K) B⟩

/-! ### The trace record by record (R227) -/

section
variable (SK : Vector (BitVec 48) 16) (d : Dir) (base : UWord) (rest : BitVec 64 → List StepRecord)

/-- Record `n` of the rounds is that of round `n` on the vector after the rounds before it. -/
theorem getElem?_foldDes {is : List Nat} {n i : Nat} (h : is[n]? = some i) (V : BitVec 64) :
    (foldDes SK d base rest is V)[n]? = some (desRoundRecord (roundWord base i)
      (afterKeys ((is.map (desKeyOfRound SK d)).take n) V) (desKeyOfRound SK d i)) := by
  induction is generalizing n V with
  | nil => exact nomatch h
  | cons j is ih =>
    cases n with
    | zero =>
      obtain rfl : j = i := Option.some.inj h
      rfl
    | succ n => exact ih h _

/-- After the rounds come the records of `rest`, on the vector that the rounds leave. -/
theorem drop_foldDes (is : List Nat) (V : BitVec 64) :
    (foldDes SK d base rest is V).drop is.length = rest (afterKeys (is.map (desKeyOfRound SK d)) V) := by
  induction is generalizing V with
  | nil => rfl
  | cons i is ih => exact ih _

end

/-- Step `n + 2` of a DES trace is round `n`, rounds counted from 0. -/
theorem desTrace_round {d : Dir} {K : BitVec 64} {n : Nat} {k : BitVec 48} (h : (desRunKeys d K)[n]? = some k)
    (B : BitVec 64) : ∃ w, (desTrace d B K)[n + 2]? = some (desRoundRecord w (desVector d B K n) k) := by
  rw [desRunKeys, List.getElem?_map, Option.map_eq_some_iff] at h
  obtain ⟨i, hi, rfl⟩ := h
  exact ⟨_, getElem?_foldDes _ d _ _ hi _⟩

/-- Step `n + 1` of a DES trace leaves the vector after `n` rounds. -/
theorem desTrace_after (d : Dir) (B K : BitVec 64) {n : Nat} (hn : n ≤ 16) :
    ∃ r, (desTrace d B K)[n + 1]? = some r ∧ r.after = desImage (desVector d B K n) := by
  cases n with
  | zero => exact ⟨_, rfl, rfl⟩
  | succ n =>
    obtain ⟨k, hk⟩ := exists_desRunKeys d K hn
    obtain ⟨w, hw⟩ := desTrace_round hk B
    exact ⟨_, hw, by rw [desVector_succ hk]; rfl⟩

/-- After the rounds a DES trace ends with the Steps of DSWAP and DFP. -/
theorem drop_desTrace (d : Dir) (B K : BitVec 64) :
    (desTrace d B K).drop 18 =
      [desPlainRecord (desWord d 0x8300) (desVector d B K 16) (swapHalves (desVector d B K 16)),
        desPlainRecord (desWord d 0x8400) (swapHalves (desVector d B K 16)) (desCrypt d B K)] :=
  drop_foldDes (desKeySchedule K) d (desWord d 0x8200) _ desRounds (initialPerm B)

/-- Step 18 of a DES trace leaves the swapped vector. -/
theorem desTrace_swap (d : Dir) (B K : BitVec 64) :
    ∃ r, (desTrace d B K)[18]? = some r ∧ r.after = desImage (swapHalves (desVector d B K 16)) :=
  ⟨_, List.getElem?_drop.symm.trans (congrArg (·[0]?) (drop_desTrace d B K)), rfl⟩

/-- Step 19 of a DES trace leaves the result. -/
theorem desTrace_result (d : Dir) (B K : BitVec 64) :
    ∃ r, (desTrace d B K)[19]? = some r ∧ r.after = desImage (desCrypt d B K) :=
  ⟨_, List.getElem?_drop.symm.trans (congrArg (·[1]?) (drop_desTrace d B K)), rfl⟩

/-! ### The decrypt trace goes back over the encrypt trace (R229) -/

theorem desVector_decrypt (B K : BitVec 64) (n : Nat) :
    desVector .decrypt (desEncrypt B K) K n = swapHalves (desVector .encrypt B K (16 - n)) :=
  desVector_backwards (desRunKeys_decrypt K) B n

/-- A decrypt round after a swap sees the right half that the encrypt round with its subkey saw. -/
theorem rightHalf_desVector_decrypt {B K : BitVec 64} {n : Nat} (hn : n < 16) :
    rightHalf (desVector .decrypt (desEncrypt B K) K n) = rightHalf (desVector .encrypt B K (15 - n)) := by
  obtain ⟨k, hk⟩ := exists_desRunKeys .encrypt K (n := 15 - n) (by omega)
  have hsucc : 16 - n = 15 - n + 1 := by omega
  rw [desVector_decrypt, rightHalf_swapHalves, hsucc, desVector_succ hk, leftHalf_desRound]

/-- Two rounds with the same right half and subkey record the same Feistel values. -/
theorem desRoundRecord_aux_congr (w w' : UWord) {V V' : BitVec 64} (h : rightHalf V = rightHalf V') (k : BitVec 48) :
    (desRoundRecord w V k).aux_sk = (desRoundRecord w' V' k).aux_sk ∧
    (desRoundRecord w V k).aux_e = (desRoundRecord w' V' k).aux_e ∧
    (desRoundRecord w V k).aux_x = (desRoundRecord w' V' k).aux_x ∧
    (desRoundRecord w V k).aux_sb = (desRoundRecord w' V' k).aux_sb ∧
    (desRoundRecord w V k).aux_f = (desRoundRecord w' V' k).aux_f := by
  simp only [desRoundRecord, h, and_self]

/-- Settles O54: the vectors and the subkeys of decryption are those of encryption backwards. -/
theorem desDecryptWalksEncryptBackwards : Obligations.DesDecryptWalksEncryptBackwards := by
  intro B K
  obtain ⟨swap, hswap, hswapAfter⟩ := desTrace_swap .decrypt (desEncrypt B K) K
  obtain ⟨result, hresult, hresultAfter⟩ := desTrace_result .decrypt (desEncrypt B K) K
  have hB : desCrypt .decrypt (desEncrypt B K) K = B := desRoundTrip.1 B K
  rw [hB] at hresultAfter
  refine ⟨fun i hi => ?_, ⟨swap, _, hswap, rfl, ?_⟩, ⟨result, _, hresult, rfl, hresultAfter, ?_⟩, fun i hlo hhi => ?_⟩
  · obtain ⟨r, hr, hrAfter⟩ := desTrace_after .decrypt (desEncrypt B K) K hi
    obtain ⟨e, he, heAfter⟩ := desTrace_after .encrypt B K (n := 16 - i) (by omega)
    have hindex : 17 - i = 16 - i + 1 := by omega
    refine ⟨r, e, Nat.add_comm i 1 ▸ hr, hindex ▸ he, ?_⟩
    rw [hrAfter, heAfter, bitsOf8_desImage, bitsOf8_desImage, desVector_decrypt]
  · rw [hswapAfter, desVector_decrypt, swapHalves_swapHalves]
    rfl
  · rw [hresultAfter, bitsOf8_desImage]
  · obtain ⟨n, rfl⟩ := Nat.exists_eq_add_of_le' hlo
    have hn : n < 16 := hhi
    obtain ⟨k, hk⟩ := exists_desRunKeys .encrypt K (n := 15 - n) (by omega)
    have hk' : (desRunKeys .decrypt K)[n]? = some k := (getElem?_desRunKeys_decrypt K hn).trans hk
    obtain ⟨w, hw⟩ := desTrace_round hk' (desEncrypt B K)
    obtain ⟨w', hw'⟩ := desTrace_round hk B
    have hdecrypt : 1 + (n + 1) = n + 2 := by omega
    have hencrypt : 18 - (n + 1) = 15 - n + 2 := by omega
    exact ⟨_, _, hdecrypt ▸ hw, hencrypt ▸ hw',
      desRoundRecord_aux_congr w w' (rightHalf_desVector_decrypt hn) k⟩

end Sys2Proof.Proofs

/-! SUPPORT. The host's side (46_host_commands.md): what a START and a store do, a list of host writes as one function,
and the parts of runCipher in order: loading, polling, and reading the Steps and the result. -/

namespace Sys2Proof.Proofs

open Sys2Proof Sys2Proof.Machine Sys2Proof.Claim

/-! ### START (R241) -/

/-- The host's write of a command to `CTRL` (R35, R240). -/
theorem regWrite_ctrl {b : Byte} {a : Alg} {d : Dir} {s : State} (hb : s.phase ≠ .busy)
    (hc : commandFields b = some (a, d)) : regWrite 0x000 b s = s.startRun a d := by
  simp [regWrite, hb, hc]

/-- Settles O31: every command is the START of its fields. -/
theorem startBeginsARun : Obligations.StartBeginsARun := by
  refine fun s g => ⟨fun hb => ?_, fun hb => ?_⟩
  · have accepted {i : Instr} {a : Alg} {d : Dir} (hc : commandOf i = some (a, d)) :
        ∃ t, exec i s = .next t ∧ t = s.startRun a d :=
      ⟨_, (exec_command hc s).trans (congrArg _ (start_not_busy hb)), rfl⟩
    exact ⟨accepted rfl, accepted rfl, accepted rfl, accepted rfl⟩
  · have ignored {i : Instr} {a : Alg} {d : Dir} (hc : commandOf i = some (a, d)) : exec i s = .next s :=
      (exec_command hc s).trans (congrArg _ (start_busy hb))
    exact ⟨ignored rfl, ignored rfl, ignored rfl, ignored rfl⟩

/-! ### Stores (R240) -/

section
variable {off : Offset} (b : Byte) (s : State)

theorem regStore_tidx (h : off.toNat = 0x003) : regStore off b s = s.setTIDX b := if_pos h

theorem regStore_msg (lo : 0x010 ≤ off.toNat) (hi : off.toNat ≤ 0x01F) :
    regStore off b s = s.setMSG (off.toNat - 0x010) b := by
  simp (disch := omega) only [regStore, if_neg, if_pos]

theorem regStore_key (lo : 0x020 ≤ off.toNat) (hi : off.toNat ≤ 0x02F) :
    regStore off b s = s.setKEY (off.toNat - 0x020) b := by
  simp (disch := omega) only [regStore, if_neg, if_pos]

theorem regWrite_eq_regStore (hb : s.phase ≠ .busy) (hoff : off ≠ 0x000) : regWrite off b s = regStore off b s := by
  rw [regWrite, if_neg hb]
  exact if_neg hoff

end

theorem getElem_setMSG (s : State) (i : Nat) (b : Byte) (j : Fin 16) :
    (s.setMSG i b).MSG[j] = if i = j.val then b else s.MSG[j] := by
  simp [Vector.getElem_setIfInBounds]

theorem getElem_setKEY (s : State) (i : Nat) (b : Byte) (j : Fin 16) :
    (s.setKEY i b).KEY[j] = if i = j.val then b else s.KEY[j] := by
  simp [Vector.getElem_setIfInBounds]

section
variable (off : Offset) (b : Byte) (s : State)

/-- A store writes nothing but `TIDX`, `MSG` and `KEY`. -/
theorem regStore_frame : ∃ x M K, regStore off b s = { s with TIDX := x, MSG := M, KEY := K } := by
  obtain ⟨-, h⟩ | ⟨-, -, h⟩ | ⟨-, -, h⟩ | h := regStore_cases off b s <;> exact ⟨_, _, _, h⟩

theorem TIDX_regStore :
    (regStore off b s).TIDX = if off.toNat = 0x003 then b.extractLsb' 0 6 else s.TIDX := by
  split
  next h => rw [regStore_tidx b s h]; rfl
  next h =>
    obtain ⟨h', -⟩ | ⟨-, -, h⟩ | ⟨-, -, h⟩ | h := regStore_cases off b s
    · exact absurd h' h
    all_goals rw [h]
    all_goals rfl

theorem getElem_MSG_regStore (i : Fin 16) :
    (regStore off b s).MSG[i] = if off.toNat = 0x010 + i.val then b else s.MSG[i] := by
  by_cases hin : 0x010 ≤ off.toNat ∧ off.toNat ≤ 0x01F
  · rw [regStore_msg b s hin.1 hin.2, getElem_setMSG]
    exact if_congr (by omega) rfl rfl
  · rw [if_neg (by omega)]
    obtain ⟨-, h⟩ | ⟨lo, hi, -⟩ | ⟨-, -, h⟩ | h := regStore_cases off b s
    · rw [h]; rfl
    · exact absurd ⟨lo, hi⟩ hin
    · rw [h]; rfl
    · rw [h]

theorem getElem_KEY_regStore (i : Fin 16) :
    (regStore off b s).KEY[i] = if off.toNat = 0x020 + i.val then b else s.KEY[i] := by
  by_cases hin : 0x020 ≤ off.toNat ∧ off.toNat ≤ 0x02F
  · rw [regStore_key b s hin.1 hin.2, getElem_setKEY]
    exact if_congr (by omega) rfl rfl
  · rw [if_neg (by omega)]
    obtain ⟨-, h⟩ | ⟨-, -, h⟩ | ⟨lo, hi, -⟩ | h := regStore_cases off b s
    · rw [h]; rfl
    · rw [h]; rfl
    · exact absurd ⟨lo, hi⟩ hin
    · rw [h]

end

/-- Settles O34: the write is a plain store, of which each field is known. -/
theorem hostWritesStoreOneByte : Obligations.HostWritesStoreOneByte := by
  intro s off b rest turn hb hoff
  have hstep : step s = .next (regStore off b (s.withTurns rest)) := by
    rw [step_cons turn, takeTurn, regWrite_eq_regStore b (s.withTurns rest) hb hoff]
  have hTIDX := TIDX_regStore off b (s.withTurns rest)
  have hMSG := getElem_MSG_regStore off b (s.withTurns rest)
  have hKEY := getElem_KEY_regStore off b (s.withTurns rest)
  obtain ⟨x, M, K, hframe⟩ := regStore_frame off b (s.withTurns rest)
  rw [hframe] at hstep hTIDX hMSG hKEY
  refine ⟨_, hstep, rfl, rfl, rfl, rfl, rfl, rfl, rfl, rfl, rfl, rfl, rfl, rfl, rfl, hTIDX.trans ?_, hMSG, hKEY⟩
  exact if_congr (BitVec.toNat_inj (y := 0x003#9)) rfl rfl

/-! ### A list of host writes -/

/-- The host's writes as turns. -/
def writeTurns (ws : List (Offset × Byte)) : List Turn := ws.map fun w => .write w.1 w.2

/-- The machine after the host's writes. -/
def afterWrites (ws : List (Offset × Byte)) (s : State) : State := ws.foldl (fun s w => regWrite w.1 w.2 s) s

theorem afterWrites_append (ws vs : List (Offset × Byte)) (s : State) :
    afterWrites (ws ++ vs) s = afterWrites vs (afterWrites ws s) := List.foldl_append

/-- A write sees nothing of the turns to come. -/
theorem regWrite_withTurns (off : Offset) (b : Byte) (s : State) (ts : List Turn) :
    regWrite off b (s.withTurns ts) = (regWrite off b s).withTurns ts := by
  by_cases hb : s.phase = .busy
  · rw [regWrite_busy hb, regWrite_busy (s := s.withTurns ts) hb]
  by_cases hoff : off = 0x000
  · subst hoff
    cases hc : commandFields b with
    | none => simp [regWrite, hb, hc]
    | some ad => rw [regWrite_ctrl hb hc, regWrite_ctrl (s := s.withTurns ts) hb hc]; rfl
  · rw [regWrite_eq_regStore b s hb hoff, regWrite_eq_regStore b (s.withTurns ts) hb hoff]
    simp only [regStore]
    split_ifs <;> rfl

/-- The writes as the machine's next turns. -/
theorem runs_writes (ws : List (Offset × Byte)) (rest : List Turn) (s : State) :
    Runs ws.length (s.withTurns (writeTurns ws ++ rest)) ((afterWrites ws s).withTurns rest) := by
  induction ws generalizing s with
  | nil => rfl
  | cons w ws ih =>
    refine runs_succ ?_ (ih (regWrite w.1 w.2 s))
    rw [← regWrite_withTurns]
    rfl

/-- The writes as turns of a host program. -/
theorem runTurns_writes (ws : List (Offset × Byte)) (s : State) :
    runTurns (writeTurns ws) (s.withTurns []) = some ((afterWrites ws s).withTurns []) := by
  induction ws generalizing s with
  | nil => rfl
  | cons w ws ih =>
    refine (runTurns_cons (s' := (regWrite w.1 w.2 s).withTurns []) ?_).trans (ih _)
    rw [← regWrite_withTurns]
    rfl

/-- A host program that has a turn to take sees nothing of the turns its state holds. -/
theorem runTurns_withTurns {ts : List Turn} (hne : ts ≠ []) (us : List Turn) (s : State) :
    runTurns ts (s.withTurns us) = runTurns ts s := by
  obtain ⟨t, ts, rfl⟩ := List.exists_cons_of_ne_nil hne
  rfl

/-! ### Loading the message and the key (R244) -/

theorem toNat_offset {o : Nat} (h : o < 512) : (BitVec.ofNat 9 o).toNat = o := Nat.mod_eq_of_lt h

theorem offset_ne_ctrl {o : Nat} (hpos : 0 < o) (h : o < 512) : BitVec.ofNat 9 o ≠ 0x000 := fun h0 =>
  Nat.ne_of_gt hpos ((toNat_offset h).symm.trans (congrArg BitVec.toNat h0))

/-- The Block `B` with its first `n` bytes taken from `l`. -/
def loadedBlock (n : Nat) (l : List Byte) (B : Block) : Block :=
  buildBlock fun i => if i.val < n then l.getD i.val 0 else B[i]

theorem getElem_loadedBlock (n : Nat) (l : List Byte) (B : Block) (i : Fin 16) :
    (loadedBlock n l B)[i] = if i.val < n then l.getD i.val 0 else B[i] := getElem_buildBlock _ _ i.isLt

theorem loadedBlock_zero (l : List Byte) (B : Block) : loadedBlock 0 l B = B :=
  block_ext fun i => getElem_loadedBlock 0 l B i

theorem loadedBlock_succ (n : Nat) (l : List Byte) (B : Block) :
    (loadedBlock n l B).setIfInBounds n (l.getD n 0) = loadedBlock (n + 1) l B := by
  apply block_ext
  intro i
  rw [getElem_loadedBlock, Fin.getElem_fin, Vector.getElem_setIfInBounds]
  have hi := getElem_loadedBlock n l B i
  rw [Fin.getElem_fin] at hi
  rw [hi]
  split
  next h => rw [if_pos (by omega), h]
  next h => exact if_congr (by omega) rfl rfl

/-- `s` with the first `n` bytes of `MSG` and `KEY` loaded. -/
def loaded (n : Nat) (Mb Kb : List Byte) (s : State) : State :=
  { s with MSG := loadedBlock n Mb s.MSG, KEY := loadedBlock n Kb s.KEY }

section
variable (n : Nat) (Mb Kb : List Byte) (s : State)

@[simp] theorem loaded_phase : (loaded n Mb Kb s).phase = s.phase := by rw [loaded]
@[simp] theorem loaded_TIDX : (loaded n Mb Kb s).TIDX = s.TIDX := by rw [loaded]
@[simp] theorem loaded_MSG : (loaded n Mb Kb s).MSG = loadedBlock n Mb s.MSG := by rw [loaded]
@[simp] theorem loaded_KEY : (loaded n Mb Kb s).KEY = loadedBlock n Kb s.KEY := by rw [loaded]

end

theorem loaded_succ (n : Nat) (Mb Kb : List Byte) (s : State) :
    loaded (n + 1) Mb Kb s = ((loaded n Mb Kb s).setMSG n (Mb.getD n 0)).setKEY n (Kb.getD n 0) := by
  simp only [loaded, State.setMSG, State.setKEY, loadedBlock_succ]

/-- The writes of `loadTurns`. -/
def loadWrites (n : Nat) (Mb Kb : List Byte) : List (Offset × Byte) :=
  (List.range n).flatMap fun i =>
    [(BitVec.ofNat 9 (0x010 + i), Mb.getD i 0), (BitVec.ofNat 9 (0x020 + i), Kb.getD i 0)]

theorem writeTurns_loadWrites (n : Nat) (Mb Kb : List Byte) :
    writeTurns (loadWrites n Mb Kb) = loadTurns n Mb Kb := List.map_flatMap

theorem loadWrites_succ (n : Nat) (Mb Kb : List Byte) :
    loadWrites (n + 1) Mb Kb = loadWrites n Mb Kb ++
      [(BitVec.ofNat 9 (0x010 + n), Mb.getD n 0), (BitVec.ofNat 9 (0x020 + n), Kb.getD n 0)] := by
  rw [loadWrites, List.range_succ, List.flatMap_append, List.flatMap_singleton]
  rfl

theorem length_loadWrites (n : Nat) (Mb Kb : List Byte) : (loadWrites n Mb Kb).length = 2 * n := by
  induction n with
  | zero => rfl
  | succ n ih => rw [loadWrites_succ, List.length_append, ih]; rfl

theorem regWrite_msg {s : State} (hb : s.phase ≠ .busy) {n : Nat} (hn : n < 16) (b : Byte) :
    regWrite (BitVec.ofNat 9 (0x010 + n)) b s = s.setMSG n b := by
  have hoff : (BitVec.ofNat 9 (0x010 + n)).toNat = 0x010 + n := toNat_offset (by omega)
  rw [regWrite_eq_regStore b s hb (offset_ne_ctrl (by omega) (by omega)), regStore_msg b s (by omega) (by omega), hoff,
    Nat.add_sub_cancel_left]

theorem regWrite_key {s : State} (hb : s.phase ≠ .busy) {n : Nat} (hn : n < 16) (b : Byte) :
    regWrite (BitVec.ofNat 9 (0x020 + n)) b s = s.setKEY n b := by
  have hoff : (BitVec.ofNat 9 (0x020 + n)).toNat = 0x020 + n := toNat_offset (by omega)
  rw [regWrite_eq_regStore b s hb (offset_ne_ctrl (by omega) (by omega)), regStore_key b s (by omega) (by omega), hoff,
    Nat.add_sub_cancel_left]

theorem afterWrites_loadWrites {s : State} (hb : s.phase ≠ .busy) (Mb Kb : List Byte) {n : Nat} (hn : n ≤ 16) :
    afterWrites (loadWrites n Mb Kb) s = loaded n Mb Kb s := by
  induction n with
  | zero => rw [loaded, loadedBlock_zero, loadedBlock_zero]; rfl
  | succ n ih =>
    have hloaded : (loaded n Mb Kb s).phase ≠ .busy := by rwa [loaded_phase]
    have hstored : ((loaded n Mb Kb s).setMSG n (Mb.getD n 0)).phase ≠ .busy := by rwa [State.setMSG_phase]
    have hMSG := regWrite_msg hloaded hn (Mb.getD n 0)
    have hKEY := regWrite_key hstored hn (Kb.getD n 0)
    rw [loadWrites_succ, afterWrites_append, ih (Nat.le_of_succ_le hn), afterWrites, List.foldl_cons, List.foldl_cons,
      List.foldl_nil, hMSG, hKEY, loaded_succ]

theorem commandFields_packC (a : Alg) (d : Dir) : commandFields (packC a d 0) = some (a, d) := by
  cases a <;> cases d <;> decide

/-- The writes of `runCipherLoad`. -/
def cipherWrites (a : Alg) (d : Dir) (message key : Text) : List (Offset × Byte) :=
  loadWrites (blockSize a) (messageBlock a d message) (keyBlock a key) ++ [(0x000, packC a d 0)]

theorem writeTurns_cipherWrites (a : Alg) (d : Dir) (message key : Text) :
    writeTurns (cipherWrites a d message key) = runCipherLoad a d message key := by
  rw [cipherWrites, runCipherLoad, ← writeTurns_loadWrites]
  exact List.map_append

theorem length_cipherWrites (a : Alg) (d : Dir) (message key : Text) :
    (cipherWrites a d message key).length = 2 * blockSize a + 1 := by
  rw [cipherWrites, List.length_append, length_loadWrites]
  rfl

theorem blockSize_le (a : Alg) : blockSize a ≤ 16 := by cases a <;> decide

/-- The machine at the start of the run that runCipher asks for. -/
def started (a : Alg) (d : Dir) (message key : Text) (s : State) : State :=
  (loaded (blockSize a) (messageBlock a d message) (keyBlock a key) s).startRun a d

section
variable (a : Alg) (d : Dir) (message key : Text) (s : State)

@[simp] theorem started_TIDX : (started a d message key s).TIDX = s.TIDX := by
  rw [started, State.startRun_TIDX, loaded_TIDX]

@[simp] theorem started_MSG :
    (started a d message key s).MSG = loadedBlock (blockSize a) (messageBlock a d message) s.MSG := by
  rw [started, State.startRun_MSG, loaded_MSG]

@[simp] theorem started_KEY :
    (started a d message key s).KEY = loadedBlock (blockSize a) (keyBlock a key) s.KEY := by
  rw [started, State.startRun_KEY, loaded_KEY]

end

theorem afterWrites_cipherWrites {s : State} (hb : s.phase ≠ .busy) (a : Alg) (d : Dir) (message key : Text) :
    afterWrites (cipherWrites a d message key) s = started a d message key s := by
  rw [cipherWrites, afterWrites_append, afterWrites_loadWrites hb _ _ (blockSize_le a)]
  exact regWrite_ctrl (by rwa [loaded_phase]) (commandFields_packC a d)

theorem messageBlock_eq_byDir (a : Alg) (d : Dir) (message : Text) :
    messageBlock a d message = byDir d (textToBlock message (blockSize a)) (hexToBlock message (blockSize a)) := by
  cases d <;> rfl

theorem length_textToBlock (text : Text) (n : Nat) : (textToBlock text n).length = n := by
  rw [textToBlock, List.length_map, List.length_range]

theorem length_messageBlock (a : Alg) (d : Dir) (message : Text) :
    (messageBlock a d message).length = blockSize a := by
  cases d with
  | encrypt => exact length_textToBlock message _
  | decrypt => rw [messageBlock, hexToBlock, List.length_map, List.length_range]

theorem getElem_loadedBlock_low {n : Nat} {l : List Byte} (hl : l.length = n) (B : Block) {i : Fin 16}
    (hi : i.val < n) : some (loadedBlock n l B)[i] = l[i.val]? := by
  rw [getElem_loadedBlock, if_pos hi, List.getD_eq_getElem l 0 (hl ▸ hi), List.getElem?_eq_getElem (hl ▸ hi)]

theorem getElem_loadedBlock_high {n : Nat} (l : List Byte) (B : Block) {i : Fin 16} (hi : n ≤ i.val) :
    (loadedBlock n l B)[i] = B[i] := by
  rw [getElem_loadedBlock, if_neg (Nat.not_lt.2 hi)]

/-- Settles O60: the writes lead to `started`, of which each field is known. -/
theorem runCipherLoadsAndStarts : Obligations.RunCipherLoadsAndStarts := by
  intro s a d message key rest hb
  have hruns := runs_writes (cipherWrites a d message key) rest s
  rw [length_cipherWrites, writeTurns_cipherWrites, afterWrites_cipherWrites hb] at hruns
  refine ⟨_, hruns, rfl, rfl, rfl, rfl, ?_, rfl, fun i hi => ⟨?_, ?_⟩, fun i hi => ⟨?_, ?_⟩⟩ <;>
    simp only [State.withTurns_TIDX, State.withTurns_MSG, State.withTurns_KEY, started_TIDX, started_MSG, started_KEY]
  · exact getElem_loadedBlock_low (length_messageBlock a d message) s.MSG hi
  · exact getElem_loadedBlock_low (length_textToBlock key _) s.KEY hi
  · exact getElem_loadedBlock_high _ s.MSG hi
  · exact getElem_loadedBlock_high _ s.KEY hi

end Sys2Proof.Proofs

/-! SUPPORT. The rest of runCipher (46_host_commands.md R243, R244): the polls of `STATUS` during a run, the Steps read
through the trace window, and the final block. -/

namespace Sys2Proof.Proofs

open Sys2Proof Sys2Proof.Machine Sys2Proof.Claim

/-! ### The rest of a run under any environment -/

/-- The state after the given micro-ops. -/
def afterMicroOps (is : List Instr) (s : State) : State := is.foldl microResult s

theorem microResult_withEnvOf (s e : State) (i : Instr) :
    microResult (withEnvOf s e) i = withEnvOf (microResult s i) e :=
  recordStep_withEnvOf (setWorking s _) e _

theorem afterMicroOps_withEnvOf (is : List Instr) (s e : State) :
    afterMicroOps is (withEnvOf s e) = withEnvOf (afterMicroOps is s) e := by
  induction is generalizing s with
  | nil => rfl
  | cons i is ih => exact (congrArg (afterMicroOps is) (microResult_withEnvOf s e i)).trans (ih _)

theorem runs_afterMicroOps {is : List Instr} {s : State} (h : Remaining is s) :
    Runs is.length s (afterMicroOps is s) := by
  induction is generalizing s with
  | nil => rfl
  | cons i is ih =>
    obtain ⟨hstep, hrest⟩ := h.step
    exact runs_succ hstep (ih hrest)

theorem program_ne_nil (a : Alg) (d : Dir) : program a d ≠ [] :=
  List.ne_nil_of_length_pos (length_program a d ▸ traceLength_pos a)

theorem runs_unique {n : Nat} {s t t' : State} (h : Runs n s t) (h' : Runs n s t') : t = t' :=
  Host.Outcome.next.inj (h.symm.trans h')

/-! ### Polling (R244, R303) -/

/-- The run still has the micro-ops `is` to do, and they lead to the CORE of `t`, whatever the host reads. -/
structure Polling (t : State) (is : List Instr) (s : State) : Prop where
  rest : Remaining is s
  target : SameCore t (afterMicroOps is s)

theorem withTurns_nil {s : State} (h : s.turns = []) : s.withTurns [] = s := by
  rw [State.withTurns, ← h]

/-- `STATUS` shows bit 1 exactly when no micro-op is left (R37). -/
theorem Remaining.status_done {is : List Instr} {s : State} (h : Remaining is s) :
    (statusByte s).getLsbD 1 = is.isEmpty := by
  rw [(getLsbD_statusByte s).2.1, doneFlag]
  cases is with
  | nil => exact decide_eq_true (h.done rfl).1
  | cons i is => rw [h.busy (List.cons_ne_nil i is)]; rfl

/-- A sequencer turn does the next micro-op, or nothing where none is left. -/
theorem Polling.sequencer {t s : State} {is : List Instr} (h : Polling t is s) :
    ∃ s', step (s.withTurns [.sequencer]) = .next s' ∧ Polling t is.tail s' := by
  have hturn : step (s.withTurns [.sequencer]) = step s := by
    rw [step_nil h.rest.turns, ← withTurns_nil h.rest.turns]
    rfl
  rw [hturn]
  cases is with
  | nil =>
    have hnot : s.phase ≠ .busy := by rw [(h.rest.done rfl).1]; decide
    exact ⟨s, by rw [step_nil h.rest.turns, sequencerTurn_not_busy hnot], h⟩
  | cons i is =>
    obtain ⟨hstep, hrest⟩ := h.rest.step
    exact ⟨_, hstep, hrest, h.target⟩

theorem Polling.sequencers {t : State} (k : Nat) {s : State} {is : List Instr} (h : Polling t is s) :
    ∃ s', runTurns (List.replicate k .sequencer) s = some s' ∧ Polling t (is.drop k) s' := by
  induction k generalizing is s with
  | zero => exact ⟨s, rfl, h⟩
  | succ k ih =>
    obtain ⟨s₁, hstep, h₁⟩ := h.sequencer
    obtain ⟨s', hrun, h'⟩ := ih h₁
    refine ⟨s', ?_, ?_⟩
    · rw [List.replicate_succ, runTurns_cons hstep, hrun]
    · rwa [← List.drop_one, List.drop_drop, Nat.add_comm] at h'

/-- A poll shows `STATUS` and changes nothing of CORE. -/
theorem Polling.poll {t s : State} {is : List Instr} (h : Polling t is s) :
    ∃ s', runTurns [pollTurn] s = some s' ∧ lastByte s' = statusByte s ∧ Polling t is s' := by
  have hpoll : runTurns [pollTurn] s = some (withEnvOf s ((s.withTurns []).logRead 0x001 (statusByte s))) := rfl
  refine ⟨_, hpoll, rfl, ⟨rfl, h.rest.rest, h.rest.pc, h.rest.busy, h.rest.done⟩, ?_⟩
  rw [afterMicroOps_withEnvOf]
  exact sameCore_trans h.target (sameCore_withEnvOf _ _)

/-- One entry of the schedule: the host stops polling exactly when no micro-op is left. -/
theorem Polling.pollDone_cons {t s : State} {is : List Instr} (h : Polling t is s) (k : Nat) (ks : List Nat) :
    ∃ s', Polling t (is.drop k) s' ∧
      pollDone (k :: ks) s = if (is.drop k).isEmpty then some s' else pollDone ks s' := by
  obtain ⟨s₁, hrun, h₁⟩ := h.sequencers k
  obtain ⟨s', hpoll, hlast, h'⟩ := h₁.poll
  refine ⟨s', h', ?_⟩
  rw [pollDone, runTurns_append, hrun, Option.bind_some, hpoll, Option.bind_some, hlast, h₁.rest.status_done]

/-- With enough sequencer turns in the schedule a poll sees DONE. -/
theorem Polling.pollDone_of_le {t s : State} {is : List Instr} {schedule : List Nat} (h : Polling t is s)
    (hne : is ≠ []) (hle : is.length ≤ schedule.sum) : ∃ s', pollDone schedule s = some s' ∧ SameCore t s' := by
  induction schedule generalizing is s with
  | nil => exact absurd (List.eq_nil_of_length_eq_zero (Nat.le_zero.1 hle)) hne
  | cons k ks ih =>
    obtain ⟨s', h', hpoll⟩ := h.pollDone_cons k ks
    rw [hpoll]
    by_cases hdone : is.drop k = []
    · rw [hdone] at h' ⊢
      exact ⟨s', rfl, h'.target⟩
    · rw [if_neg (by rwa [List.isEmpty_iff])]
      rw [List.sum_cons] at hle
      exact ih h' hdone (by rw [List.length_drop]; omega)

/-- With too few of them every poll sees BUSY. -/
theorem Polling.pollDone_of_lt {t s : State} {is : List Instr} {schedule : List Nat} (h : Polling t is s)
    (hlt : schedule.sum < is.length) : pollDone schedule s = none := by
  induction schedule generalizing is s with
  | nil => rfl
  | cons k ks ih =>
    obtain ⟨s', h', hpoll⟩ := h.pollDone_cons k ks
    rw [List.sum_cons] at hlt
    have hleft : ks.sum < (is.drop k).length := by rw [List.length_drop]; omega
    rw [hpoll, if_neg (by rw [List.isEmpty_iff]; exact List.ne_nil_of_length_pos (Nat.zero_lt_of_lt hleft))]
    exact ih h' hleft

/-- From START on, the whole program is left to do. -/
theorem polling_of_start {a : Alg} {s : State} (hb : s.phase = .busy) (ha : s.ALG_L = a) (hpc : s.pc = 0)
    (hturns : s.turns = []) : ∃ t, RanProgram a s t ∧ Polling t (program a s.DIR_L) s := by
  obtain ⟨t, hruns, ran⟩ := runs_program hb ha hpc hturns
  subst ha
  have hlen := length_program s.ALG_L s.DIR_L
  have hrest : Remaining (program s.ALG_L s.DIR_L) s :=
    ⟨hturns, by rw [hpc]; rfl, by rw [hpc, hlen]; exact Nat.zero_add _, fun _ => hb,
      fun h => absurd h (program_ne_nil _ _)⟩
  have hafter : afterMicroOps (program s.ALG_L s.DIR_L) s = t :=
    runs_unique (runs_afterMicroOps hrest) (hlen ▸ hruns)
  exact ⟨t, ran, hrest, hafter ▸ sameCore_env t t.turns t.reads t.draws⟩

/-! ### Reading the results (R243, R244) -/

/-- `s` is in DONE and holds the trace `rs` and the final block `out`. -/
structure Finished (a : Alg) (d : Dir) (rs : List StepRecord) (out : Block) (s : State) : Prop where
  phase : s.phase = .done
  ALG_L : s.ALG_L = a
  DIR_L : s.DIR_L = d
  length : rs.length = traceLength a
  pc : s.pc.toNat = traceLength a
  trace : ∀ j (h : j < 42), j < traceLength a → rs[j]? = some s.TRACE[j]
  out : s.OUT = out

theorem RanProgram.finished {a : Alg} {s t u : State} (ran : RanProgram a s t) (ha : s.ALG_L = a)
    (same : SameCore t u) : Finished a s.DIR_L (traceOf a s.DIR_L s.MSG s.KEY) t.OUT u where
  phase := same.phase.trans ran.phase
  ALG_L := same.ALG_L.trans (ran.kept.ALG_L.trans ha)
  DIR_L := same.DIR_L.trans ran.kept.DIR_L
  length := length_traceOf _ _ _ _
  pc := same.pc ▸ ran.pc
  trace := same.TRACE ▸ ran.trace
  out := same.OUT

/-- The turns of reads at the offsets from `base` on. -/
def readTurns (base n : Nat) : List Turn := (List.range n).map fun j => readTurn (base + j)

section
variable {a : Alg} {d : Dir} {rs : List StepRecord} {out : Block} {s : State}

/-- Selecting a Step and reading leave the results as they are. -/
theorem Finished.withHostFields (h : Finished a d rs out s) (x : BitVec 6) (ts : List Turn) (reads : List HostRead) :
    Finished a d rs out { s with TIDX := x, turns := ts, reads := reads } :=
  ⟨h.phase, h.ALG_L, h.DIR_L, h.length, h.pc, h.trace, h.out⟩

/-- The host reads `n` defined bytes from `base` on. -/
theorem Finished.runTurns_readTurns (h : Finished a d rs out s) {base n : Nat} (f : Nat → Byte)
    (hn : base + n ≤ 512) (hf : ∀ j, j < n → regValue s (BitVec.ofNat 9 (base + j)) = some (f j)) :
    ∃ t, runTurns (readTurns base n) s = some t ∧ lastReads t n = (List.range n).map f ∧ Finished a d rs out t := by
  have hback (j : Nat) (hj : j < n) : (BitVec.ofNat 9 (base + j)).toNat - base = j := by
    rw [toNat_offset (by omega), Nat.add_sub_cancel_left]
  have hvalues : ∀ o ∈ (List.range n).map fun j => BitVec.ofNat 9 (base + j),
      regValue s o = some (f (o.toNat - base)) := by
    intro o ho
    obtain ⟨j, hj, rfl⟩ := List.mem_map.1 ho
    rw [List.mem_range] at hj
    rw [hf j hj, hback j hj]
  obtain ⟨t, hrun, hfields, hreads⟩ := runTurns_reads (fun o => f (o.toNat - base)) _ s hvalues
  refine ⟨t, ?_, ?_, ?_⟩
  · rw [← hrun, List.map_map]
    rfl
  · have hlast := lastReads_of_reads _ _ t s.reads hreads
    rw [List.length_map, List.length_range, List.map_map] at hlast
    rw [hlast]
    exact List.map_congr_left fun j hj => congrArg f (hback j (List.mem_range.1 hj))
  · rw [hfields]
    exact h.withHostFields s.TIDX _ _

/-- `NSTEPS` shows the length of the trace (R36). -/
theorem Finished.runTurns_nsteps (h : Finished a d rs out s) :
    ∃ t, runTurns [readTurn 0x002] s = some t ∧ (lastByte t).toNat = rs.length ∧ Finished a d rs out t := by
  have hvalue : ∀ j, j < 1 → regValue s (BitVec.ofNat 9 (0x002 + j)) = some (0#2 ++ s.pc) := by
    intro j hj
    obtain rfl : j = 0 := by omega
    exact (regValue_nsteps s).trans (by rw [nstepsByte, h.phase])
  obtain ⟨t, hrun, hlast, ht⟩ := h.runTurns_readTurns (fun _ => 0#2 ++ s.pc) (by decide) hvalue
  refine ⟨t, hrun, ?_, ht⟩
  have hbyte : lastByte t = 0#2 ++ s.pc := by rw [lastByte, hlast]; rfl
  have hle := traceLength_le a
  rw [hbyte, zero_append_six_bits, BitVec.toNat_setWidth, h.pc, h.length]
  omega

/-- The host writes the number of a Step to `TIDX` (R243). -/
theorem Finished.step_select (h : Finished a d rs out s) {j : Nat} (hj : j < 64) :
    ∃ t, step (s.withTurns [writeTurn 0x003 (BitVec.ofNat 8 j)]) = .next t ∧ t.TIDX.toNat = j ∧ t.TRACE = s.TRACE ∧
      Finished a d rs out t := by
  have hnot : (s.withTurns []).phase ≠ .busy := by rw [State.withTurns_phase, h.phase]; decide
  refine ⟨(s.withTurns []).setTIDX (BitVec.ofNat 8 j), ?_, ?_, rfl, h.withHostFields _ _ _⟩
  · rw [writeTurn, step_write, regWrite_eq_regStore _ _ hnot (by decide), regStore_tidx _ _ (by decide)]
  · rw [State.setTIDX_TIDX, BitVec.extractLsb'_toNat, Nat.shiftRight_zero, BitVec.toNat_ofNat]
    omega

/-- Step `j` through the trace window is record `j` of the trace (R72, R243). -/
theorem Finished.runTurns_stepTurns (h : Finished a d rs out s) {j : Nat} {r : StepRecord} (hj : rs[j]? = some r) :
    ∃ t, runTurns (stepTurns j) s = some t ∧ recordOfWindow (lastReads t 0x60) = r ∧ Finished a d rs out t := by
  have hlt : j < traceLength a := h.length ▸ (List.getElem?_eq_some_iff.1 hj).1
  have h42 : j < 42 := Nat.lt_of_lt_of_le hlt (traceLength_le a)
  have hr : s.TRACE[j] = r := Option.some.inj ((h.trace j h42 hlt).symm.trans hj)
  obtain ⟨u, hselect, hTIDX, hTRACE, hu⟩ := h.step_select (j := j) (by omega)
  have hshown (o : Nat) : traceWindow u o = windowByte r o := by
    rw [traceWindow_shown (by omega) (by rw [hTIDX, hu.pc]; exact hlt)]
    simp only [hTIDX, hTRACE, hr]
  have hvalues : ∀ k, k < 0x60 → regValue u (BitVec.ofNat 9 (0x040 + k)) = some (windowByte r (0x040 + k)) := by
    intro k hk
    have hoff : (BitVec.ofNat 9 (0x040 + k)).toNat = 0x040 + k := toNat_offset (by omega)
    rw [regValue_traceWindow u (by omega) (by omega), whenDone_done hu.phase, hoff, hshown]
  obtain ⟨t, hrun, hlast, ht⟩ := hu.runTurns_readTurns _ (by decide) hvalues
  refine ⟨t, (runTurns_cons hselect).trans hrun, ?_, ht⟩
  rw [hlast]
  exact recordOfWindow_windowBytes r

/-- From Step `k` on, the host reads what is left of the trace. -/
theorem Finished.readSteps_range' (n : Nat) {k : Nat} {s : State} (h : Finished a d rs out s) (hk : k + n = rs.length) :
    ∃ t, readSteps (List.range' k n) s = some (rs.drop k, t) ∧ Finished a d rs out t := by
  induction n generalizing k s with
  | zero =>
    rw [List.drop_of_length_le (i := k) (Nat.le_of_eq hk.symm)]
    exact ⟨s, rfl, h⟩
  | succ n ih =>
    have hlt : k < rs.length := by omega
    obtain ⟨s₁, hrun, hrecord, h₁⟩ := h.runTurns_stepTurns (List.getElem?_eq_getElem hlt)
    obtain ⟨t, hrest, ht⟩ := ih h₁ (k := k + 1) (by omega)
    refine ⟨t, ?_, ht⟩
    rw [List.range'_succ, readSteps, hrun, Option.bind_some, hrest, Option.map_some, hrecord,
      List.drop_eq_getElem_cons hlt]

theorem map_byteOf_range (B : Block) {n : Nat} (hn : n ≤ 16) : (List.range n).map (byteOf B) = B.toList.take n := by
  apply List.ext_getElem
  · simp [hn]
  · intro i hi _
    rw [List.length_map, List.length_range] at hi
    simp [byteOf_eq B i (by omega)]

/-- The host reads the first bytes of the final block. -/
theorem Finished.runTurns_outTurns (h : Finished a d rs out s) {n : Nat} (hn : n ≤ 16) :
    ∃ t, runTurns (outTurns n) s = some t ∧ lastReads t n = out.toList.take n ∧ Finished a d rs out t := by
  have hvalues : ∀ j, j < n → regValue s (BitVec.ofNat 9 (0x030 + j)) = some (byteOf out j) := by
    intro j hj
    have hoff : (BitVec.ofNat 9 (0x030 + j)).toNat = 0x030 + j := toNat_offset (by omega)
    rw [regValue_out s (by omega) (by omega), whenDone_done h.phase, hoff, Nat.add_sub_cancel_left, h.out]
  obtain ⟨t, hrun, hlast, ht⟩ := h.runTurns_readTurns (byteOf out) (by omega) hvalues
  exact ⟨t, hrun, hlast.trans (map_byteOf_range out hn), ht⟩

/-- After DONE the host reads the trace and the final block. -/
theorem Finished.readResults_eq (h : Finished a d rs out s) :
    ∃ t, readResults a s =
        some ({ trace := rs
                hex := blockToHex (out.toList.take (blockSize a))
                text := blockToText (out.toList.take (blockSize a)) }, t) ∧
      Finished a d rs out t := by
  obtain ⟨s₁, hnsteps, hlast, h₁⟩ := h.runTurns_nsteps
  obtain ⟨s₂, hsteps, h₂⟩ := h₁.readSteps_range' rs.length (k := 0) (Nat.zero_add _)
  obtain ⟨t, hout, hfinal, ht⟩ := h₂.runTurns_outTurns (blockSize_le a)
  refine ⟨t, ?_, ht⟩
  rw [readResults, hnsteps, Option.bind_some, hlast, List.range_eq_range', hsteps, Option.bind_some, hout,
    Option.map_some, hfinal, List.drop_zero]

end

/-! ### What the codec's blocks determine -/

theorem byteOf_eq_getD (B : Block) (i : Nat) : byteOf B i = B.toList.getD i 0 := by
  simp [byteOf, List.getD_eq_getElem?_getD]

/-- A Block that begins with the bytes loaded agrees with what was loaded. -/
theorem agreeFor_loadedBlock {a : Alg} {M : Block} {l : List Byte} (h : M.toList.take (blockSize a) = l) (B : Block) :
    AgreeFor a M (loadedBlock (blockSize a) l B) := by
  intro i hi
  have h16 := blockSize_le a
  rw [byteOf_fin (loadedBlock _ l B) ⟨i, by omega⟩, getElem_loadedBlock, if_pos hi, ← h, byteOf_eq_getD]
  simp [List.getD_eq_getElem?_getD, hi]

/-- The final block is the image that the program leaves, without the zero bytes of DES. -/
theorem finalOf_eq (a : Alg) (d : Dir) (M K : Block) (w : Working) :
    finalOf a d M K = (imageOf a (workingAfter M K (program a d) w)).toList.take (blockSize a) := by
  cases a with
  | aes =>
    rw [workingAfter_aes, List.take_of_length_le (by rw [Vector.length_toList]; exact Nat.le_refl _)]
    cases d <;> rfl
  | des => rw [workingAfter_des]; rfl

/-- What a run on the loaded blocks shows is what the codec's blocks give. -/
theorem RanProgram.results {a : Alg} {s t : State} {M K : Block} (ran : RanProgram a s t)
    (hM : AgreeFor a M s.MSG) (hK : AgreeFor a K s.KEY) :
    traceOf a s.DIR_L M K = traceOf a s.DIR_L s.MSG s.KEY ∧
      finalOf a s.DIR_L M K = t.OUT.toList.take (blockSize a) := by
  obtain ⟨htrace, himage, -⟩ := program_congr hM hK s.DIR_L (workingOf s) (workingOf s)
  refine ⟨htrace, ?_⟩
  rw [ran.out, ran.working, ← himage]
  exact finalOf_eq a s.DIR_L M K (workingOf s)

/-! ### runCipher (R244) -/

theorem runTurns_runCipherLoad {s : State} (hb : s.phase ≠ .busy) (a : Alg) (d : Dir) (message key : Text) :
    runTurns (runCipherLoad a d message key) s = some ((started a d message key s).withTurns []) := by
  have hne : runCipherLoad a d message key ≠ [] := List.append_ne_nil_of_right_ne_nil _ (List.cons_ne_nil _ _)
  rw [← runTurns_withTurns hne [], ← writeTurns_cipherWrites, runTurns_writes, afterWrites_cipherWrites hb]

/-- Settles O1: loading leaves the program to run; the polls see it end or not, as the schedule allows; what the host
reads then is the trace and the result of the program. -/
theorem runCipherReturnsTheTrace : Obligations.RunCipherReturnsTheTrace := by
  intro s a d message key schedule M K hb hM hK
  obtain ⟨t, ran, hpolling⟩ :=
    polling_of_start (a := a) (s := (started a d message key s).withTurns []) rfl rfl rfl rfl
  have hlen : (program a d).length = traceLength a := length_program a d
  refine ⟨fun hle => ?_, fun hlt => ?_⟩ <;> rw [runCipher, runTurns_runCipherLoad hb, Option.bind_some]
  · obtain ⟨s', hpoll, same⟩ := hpolling.pollDone_of_le (program_ne_nil a d) (hlen ▸ hle)
    obtain ⟨u, hread, hu⟩ := (ran.finished rfl same).readResults_eq
    rw [← messageBlock_eq_byDir] at hM
    obtain ⟨htrace, hfinal⟩ := ran.results (agreeFor_loadedBlock hM s.MSG) (agreeFor_loadedBlock hK s.KEY)
    refine ⟨u, ?_, hu.phase, hu.ALG_L, hu.DIR_L⟩
    rw [hpoll, Option.bind_some, hread, ← htrace, ← hfinal]
    rfl
  · rw [hpolling.pollDone_of_lt (hlen ▸ hlt), Option.bind_none]

end Sys2Proof.Proofs

/-! SUPPORT. The host's codec (47_host_codec.md): text as a block and back, and a block as hex digits and back. -/

namespace Sys2Proof.Proofs

open Sys2Proof Sys2Proof.Machine Sys2Proof.Claim

/-! ### Text to a block (R261) -/

theorem charByte_of_le {c : Nat} (hc : c ≤ 255) : charByte c = BitVec.ofNat 8 c := if_pos hc

@[simp] theorem textToBlock_nil (bs : Nat) : textToBlock [] bs = List.replicate bs 0x00 := by
  simp [textToBlock]

/-- The first character fills the first byte; the rest of the text fills the rest of the block. -/
@[simp] theorem textToBlock_cons_succ (c : Nat) (text : Text) (bs : Nat) :
    textToBlock (c :: text) (bs + 1) = charByte c :: textToBlock text bs := by
  rw [textToBlock, List.range_succ_eq_map, List.map_cons, List.map_map]
  rfl

theorem getElem?_textToBlock (text : Text) {bs i : Nat} (hi : i < bs) :
    (textToBlock text bs)[i]? = some ((text[i]?.map charByte).getD 0x00) := by
  rw [textToBlock, List.getElem?_map, List.getElem?_range hi, Option.map_some]
  cases text[i]? <;> rfl

/-- Settles O57: byte `i` is the byte of character `i` where there is one, and a code up to 255 is its own byte. -/
theorem textToBlockPadsAndTruncates : Obligations.TextToBlockPadsAndTruncates := by
  refine ⟨fun text bs hcodes => ⟨length_textToBlock text bs, fun i hi => ?_⟩, textToBlock_nil,
    by decide, by decide, by decide, by decide⟩
  rw [getElem?_textToBlock text hi]
  split
  next hin =>
    rw [List.getElem?_eq_getElem hin, Option.map_some, Option.getD_some,
      charByte_of_le (hcodes _ (List.getElem_mem hin))]
  next hout => rw [List.getElem?_eq_none (Nat.le_of_not_lt hout), Option.map_none, Option.getD_none]

/-! ### A block to text (R266) -/

@[simp] theorem blockToText_null_cons (B : List Byte) : blockToText (0x00 :: B) = [] := if_pos rfl

theorem blockToText_printable_cons {b : Byte} (hb : 32 ≤ b.toNat ∧ b.toNat ≤ 126) (B : List Byte) :
    blockToText (b :: B) = b.toNat :: blockToText B := by
  have hne : b ≠ 0x00 := by rintro rfl; exact absurd hb (by decide)
  exact (if_neg hne).trans (if_pos hb)

theorem blockToText_skipped_cons {b : Byte} (hne : b ≠ 0x00) (hb : ¬(32 ≤ b.toNat ∧ b.toNat ≤ 126))
    (B : List Byte) : blockToText (b :: B) = blockToText B :=
  (if_neg hne).trans (if_neg hb)

theorem blockToText_eq_filter_takeWhile (B : List Byte) : blockToText B =
    ((B.takeWhile (fun b => b != 0x00)).filter (fun b => decide (32 ≤ b.toNat ∧ b.toNat ≤ 126))).map BitVec.toNat := by
  induction B with
  | nil => rfl
  | cons b B ih =>
    by_cases hnull : b = 0x00
    · subst hnull
      rw [blockToText_null_cons]
      rfl
    · rw [List.takeWhile_cons_of_pos (p := fun b => b != 0x00) (bne_iff_ne.2 hnull)]
      by_cases hb : 32 ≤ b.toNat ∧ b.toNat ≤ 126
      · simp [blockToText_printable_cons hb, ih, hb]
      · simp [blockToText_skipped_cons hnull hb, ih, hb]

/-- The padding of a block ends its text. -/
theorem blockToText_replicate_null (n : Nat) : blockToText (List.replicate n 0x00) = [] := by
  cases n with
  | zero => rfl
  | succ n => exact blockToText_null_cons _

theorem blockToText_textToBlock {t : Text} (ht : ∀ c ∈ t, 32 ≤ c ∧ c ≤ 126) {bs : Nat} (hlen : t.length ≤ bs) :
    blockToText (textToBlock t bs) = t := by
  induction t generalizing bs with
  | nil => rw [textToBlock_nil, blockToText_replicate_null]
  | cons c t ih =>
    obtain ⟨hc, ht⟩ := List.forall_mem_cons.1 ht
    obtain ⟨n, rfl⟩ := Nat.exists_eq_add_one.2 (Nat.lt_of_lt_of_le (Nat.succ_pos _) hlen)
    have hbyte : (charByte c).toNat = c := by
      rw [charByte_of_le (by omega), BitVec.toNat_ofNat, Nat.mod_eq_of_lt (by omega)]
    rw [textToBlock_cons_succ, blockToText_printable_cons (by rwa [hbyte]), hbyte,
      ih ht (Nat.le_of_succ_le_succ hlen)]

/-- Settles O59: by induction on the block, and by induction on the text with the null padding as its end. -/
theorem printableTextRoundTrip : Obligations.PrintableTextRoundTrip :=
  ⟨blockToText_eq_filter_takeWhile, fun _ _ hlen ht => blockToText_textToBlock ht hlen,
    by decide, by decide, by decide, by decide⟩

/-! ### Hex digits (R263, R265) -/

theorem hexDigit_eq_upperDigits : ∀ n < 16, upperDigits[n]? = some (hexDigit n) := by decide

theorem hexVal_hexDigit : ∀ n < 16, hexVal (hexDigit n) = some n := by decide

theorem isWhitespace_hexDigit : ∀ n < 16, isWhitespace (hexDigit n) = false := by decide

theorem upperHex_hexDigit : ∀ n < 16, upperHex (hexDigit n) = hexDigit n := by decide

theorem highNibble_lt (b : Byte) : b.toNat / 16 < 16 := Nat.div_lt_of_lt_mul b.isLt

theorem lowNibble_lt (b : Byte) : b.toNat % 16 < 16 := Nat.mod_lt _ (by decide)

/-- The two digits of a byte give it back. -/
theorem hexPair_hexDigits (b bad : Byte) :
    hexPair (hexDigit (b.toNat / 16)) (hexDigit (b.toNat % 16)) bad = b := by
  rw [hexPair, hexVal_hexDigit _ (highNibble_lt b), hexVal_hexDigit _ (lowNibble_lt b)]
  simp only [Nat.div_add_mod, BitVec.ofNat_toNat, BitVec.setWidth_eq]

/-! ### A block to hex (R265) -/

@[simp] theorem blockToHex_cons (b : Byte) (B : List Byte) :
    blockToHex (b :: B) = hexDigit (b.toNat / 16) :: hexDigit (b.toNat % 16) :: blockToHex B := rfl

theorem length_blockToHex (B : List Byte) : (blockToHex B).length = 2 * B.length := by
  induction B with
  | nil => rfl
  | cons b B ih => rw [blockToHex_cons, List.length_cons, List.length_cons, List.length_cons, ih, Nat.mul_succ]

/-- The digits of byte `i` stand at `2 * i` and `2 * i + 1`. -/
theorem getElem?_blockToHex {B : List Byte} {i : Nat} {b : Byte} (hb : B[i]? = some b) :
    (blockToHex B)[2 * i]? = some (hexDigit (b.toNat / 16)) ∧
      (blockToHex B)[2 * i + 1]? = some (hexDigit (b.toNat % 16)) := by
  induction B generalizing i with
  | nil => cases hb
  | cons b' B ih =>
    cases i with
    | zero => cases hb; exact ⟨rfl, rfl⟩
    | succ i => exact ih hb

theorem mem_blockToHex {B : List Byte} {c : Nat} (hc : c ∈ blockToHex B) : ∃ n < 16, c = hexDigit n := by
  obtain ⟨b, -, hcb⟩ := List.mem_flatMap.1 hc
  obtain rfl | hcb := List.mem_cons.1 hcb
  · exact ⟨_, highNibble_lt b, rfl⟩
  · exact ⟨_, lowNibble_lt b, List.mem_singleton.1 hcb⟩

/-! ### Hex to a block (R263) -/

/-- The text that `hexToBlock` reads: whitespace stripped, letters raised. -/
def normalHex (h : Text) : Text := (h.filter fun c => !isWhitespace c).map upperHex

/-- A rendering holds upper-case digits only, so there is nothing to strip or to raise. -/
theorem normalHex_blockToHex (B : List Byte) : normalHex (blockToHex B) = blockToHex B := by
  have hstrip : ∀ c ∈ blockToHex B, (!isWhitespace c) = true := fun c hc => by
    obtain ⟨n, hn, rfl⟩ := mem_blockToHex hc
    rw [isWhitespace_hexDigit n hn, Bool.not_false]
  have hraise : ∀ c ∈ blockToHex B, upperHex c = id c := fun c hc => by
    obtain ⟨n, hn, rfl⟩ := mem_blockToHex hc
    exact upperHex_hexDigit n hn
  rw [normalHex, List.filter_eq_self.2 hstrip, List.map_congr_left hraise, List.map_id]

/-- Byte `i` comes from the characters `2 * i` and `2 * i + 1` of what `hexToBlock` reads. -/
theorem getElem?_hexToBlock {h : Text} {bs i a b : Nat} (hi : i < bs) (ha : (normalHex h)[2 * i]? = some a)
    (hb : (normalHex h)[2 * i + 1]? = some b) :
    (hexToBlock h bs)[i]? = some (hexPair a b (Config.HEX_BAD_CHAR (normalHex h) i)) := by
  rw [normalHex] at ha hb
  rw [hexToBlock, List.getElem?_map, List.getElem?_range hi, Option.map_some, ha, hb, normalHex]

theorem length_hexToBlock (h : Text) (bs : Nat) : (hexToBlock h bs).length = bs := by
  rw [hexToBlock, List.length_map, List.length_range]

theorem hexToBlock_of_normalHex_eq {B : List Byte} {h : Text} (hh : normalHex h = blockToHex B) :
    hexToBlock h B.length = B := by
  refine List.ext_getElem? fun i => ?_
  obtain hi | hi := Nat.lt_or_ge i B.length
  · obtain ⟨hhigh, hlow⟩ := getElem?_blockToHex (List.getElem?_eq_getElem hi)
    rw [getElem?_hexToBlock hi (hh ▸ hhigh) (hh ▸ hlow), hexPair_hexDigits, List.getElem?_eq_getElem hi]
  · rw [List.getElem?_eq_none hi, List.getElem?_eq_none ((length_hexToBlock h _).symm ▸ hi)]

/-- Settles O58: a byte's two digits give it back, at any place of the block, whatever spaces and cases the text had. -/
theorem hexRoundTrip : Obligations.HexRoundTrip := by
  refine ⟨length_blockToHex, fun B i b hb => ?_, fun B => hexToBlock_of_normalHex_eq (normalHex_blockToHex B),
    fun B h => hexToBlock_of_normalHex_eq, by decide, by decide, by decide⟩
  rw [hexDigit_eq_upperDigits _ (highNibble_lt b), hexDigit_eq_upperDigits _ (lowNibble_lt b)]
  exact getElem?_blockToHex hb

end Sys2Proof.Proofs

/-! SUPPORT. Command bytes as inverse maps of the encoder, and from them the round trips of 30_encoding.md section 1
over both formats; then that the machine never stops (60_exceptions.md R280): what holds at power-on and is kept by
every step holds of every reachable state. -/

namespace Sys2Proof.Proofs

open Sys2Proof Sys2Proof.Machine Sys2Proof.Claim

/-! ### Command bytes (R94) -/

/-- The START of an algorithm and a direction, with the ignored bits 7:3 of its byte. -/
def startOf : Alg → Dir → BitVec 5 → Instr
  | .aes, .encrypt => .startAesEnc
  | .des, .encrypt => .startDesEnc
  | .aes, .decrypt => .startAesDec
  | .des, .decrypt => .startDesDec

theorem wf_startOf (a : Alg) (d : Dir) (ignored : BitVec 5) : (startOf a d ignored).wf = true := by
  cases a <;> cases d <;> rfl

theorem encode_startOf (a : Alg) (d : Dir) (ignored : BitVec 5) :
    encode (startOf a d ignored) = .c (packC a d ignored) := by
  cases a <;> cases d <;> rfl

/-- Each instruction is a micro-op or a START. -/
theorem isMicro_or_eq_startOf (i : Instr) : i.isMicro = true ∨ ∃ a d ignored, i = startOf a d ignored := by
  cases i with
  | startAesEnc g => exact .inr ⟨.aes, .encrypt, g, rfl⟩
  | startDesEnc g => exact .inr ⟨.des, .encrypt, g, rfl⟩
  | startAesDec g => exact .inr ⟨.aes, .decrypt, g, rfl⟩
  | startDesDec g => exact .inr ⟨.des, .decrypt, g, rfl⟩
  | blk2st | keyexp | addrk | subb | shrow | mixc | isubb | ishrow | imixc | dinput | dip | dround | dswap | dfp =>
    exact .inl rfl

/-- Each field of a packed command byte reads back. -/
theorem packC_fields (a : Alg) (d : Dir) (ignored : BitVec 5) :
    (packC a d ignored).getLsbD 1 = bitOfAlg a ∧ (packC a d ignored).getLsbD 2 = bitOfDir d ∧
    (packC a d ignored).extractLsb' 3 5 = ignored := by
  refine ⟨?_, ?_, ?_⟩
  · simp only [packC, BitVec.getLsbD_append]
    simp
  · simp only [packC, BitVec.getLsbD_append]
    simp
  · rw [packC, BitVec.extractLsb'_append_eq_of_le (by decide), BitVec.extractLsb'_append_eq_of_le (by decide)]
    exact BitVec.extractLsb'_append_eq_left

theorem extractLsb'_one_eq_ofBool {n : Nat} (x : BitVec n) (k : Nat) :
    x.extractLsb' k 1 = BitVec.ofBool (x.getLsbD k) := by
  ext i hi
  obtain rfl : i = 0 := by omega
  simp

/-- A byte with bit 0 set is packed from its own fields. -/
theorem packC_of_fields {b : Byte} (h : b.getLsbD 0 = true) :
    packC (algOfBit (b.getLsbD 1)) (dirOfBit (b.getLsbD 2)) (b.extractLsb' 3 5) = b := by
  have hstart : 1#1 = b.extractLsb' 0 1 := by rw [extractLsb'_one_eq_ofBool, h]; rfl
  simp only [packC, bitOfAlg_algOfBit, bitOfDir_dirOfBit, ← extractLsb'_one_eq_ofBool, hstart]
  simp only [BitVec.extractLsb'_append_extractLsb'_eq_extractLsb', BitVec.extractLsb'_eq_self]

/-- A byte with bit 0 set decodes to the START that its bits name. -/
theorem decodeC_of_start_bit {b : Byte} (h : b.getLsbD 0 = true) :
    decodeC b = .ok (startOf (algOfBit (b.getLsbD 1)) (dirOfBit (b.getLsbD 2)) (b.extractLsb' 3 5)) := by
  rw [decodeC, commandFields_of_start_bit h]
  cases b.getLsbD 1 <;> cases b.getLsbD 2 <;> rfl

/-- A byte with bit 0 clear is no command (R94). -/
theorem decodeC_of_not_start_bit {b : Byte} (h : b.getLsbD 0 = false) : decodeC b = .error .notACommand := by
  rw [decodeC, commandFields_of_not_start_bit h]

theorem decodeC_packC (a : Alg) (d : Dir) (ignored : BitVec 5) :
    decodeC (packC a d ignored) = .ok (startOf a d ignored) := by
  obtain ⟨ha, hd, hignored⟩ := packC_fields a d ignored
  rw [decodeC_of_start_bit (Laws.packC_start_bit a d ignored), ha, hd, hignored, algOfBit_bitOfAlg, dirOfBit_bitOfDir]

/-- A byte that decodes is the byte of the START it decodes to. -/
theorem decodeC_ok {b : Byte} {i : Instr} (h : decodeC b = .ok i) : i.wf = true ∧ encode i = .c b := by
  cases h0 : b.getLsbD 0 with
  | false => cases (decodeC_of_not_start_bit h0).symm.trans h
  | true =>
    obtain rfl := Except.ok.inj ((decodeC_of_start_bit h0).symm.trans h)
    exact ⟨wf_startOf _ _ _, (encode_startOf _ _ _).trans (congrArg Encoded.c (packC_of_fields h0))⟩

/-! ### The round trips (30_encoding.md section 1) -/

theorem encode_of_isMicro {i : Instr} (hm : i.isMicro = true) : encode i = .u (uopOf i) := by
  cases i with
  | startAesEnc | startDesEnc | startAesDec | startDesDec => exact Bool.noConfusion hm
  | blk2st | keyexp | addrk | subb | shrow | mixc | isubb | ishrow | imixc | dinput | dip | dround | dswap | dfp => rfl

/-- Settles O15: a micro-op's word decodes to it when its round is in range, and a START's byte always does. -/
theorem decodeOfEncodeIsIdentity : Obligations.DecodeOfEncodeIsIdentity := by
  intro i hw
  obtain hm | ⟨a, d, ignored, rfl⟩ := isMicro_or_eq_startOf i
  · rw [encode_of_isMicro hm, decode, decodeU_uopOf hm, ifLegal, if_pos hw]
  · rw [encode_startOf, decode, decodeC_packC]

/-- Settles O16, format by format. -/
theorem encodeOfDecodeIsIdentity : Obligations.EncodeOfDecodeIsIdentity := by
  intro e i h
  cases e with
  | u w =>
    obtain ⟨hw, -, hword⟩ := decodeU_ok h
    exact ⟨hw, hword⟩
  | c b => exact decodeC_ok h

theorem decode_of_encode {i : Instr} {e : Encoded} (hw : i.wf = true) (he : encode i = e) : decode e = .ok i :=
  he ▸ decodeOfEncodeIsIdentity i hw

/-- Settles O18: every listed word is the encoding of its instruction, bit 0 of a byte tells a START from no command,
and the decoder rejects the eighteen reserved words. -/
theorem specWordsDecodeAsListed : Obligations.SpecWordsDecodeAsListed := by
  unfold Obligations.SpecWordsDecodeAsListed
  and_intros
  iterate 16 exact decode_of_encode (e := .u _) rfl rfl
  iterate 5 exact decodeC_of_start_bit rfl
  · exact decodeC_of_not_start_bit rfl
  · decide

/-! ### The state after reset (R40) -/

/-- Whatever the environment is about to do, power-on leaves the phase machine in IDLE with the control state of
reset. -/
theorem phaseInv_powerOn (ts : List Turn) : PhaseInv { State.reset with turns := ts } where
  idle _ := ⟨rfl, rfl, rfl⟩
  busy h := by cases h
  done h := by cases h

/-- Settles O43: the reset state is IDLE at `pc` 0, where the trace and the key file are asked nothing. -/
theorem resetMeetsTheInvariants : Obligations.ResetMeetsTheInvariants :=
  ⟨phaseInv_powerOn [], traceInv_of_pc_zero rfl, keyFileInv_of_not_busy nofun⟩

/-! ### The machine never stops (R280) -/

/-- The sequencer goes on: no micro-program holds a reserved word (R97). -/
theorem sequencerTurn_goes_on (s : State) : ∃ t, sequencerTurn s = .next t := by
  by_cases hb : s.phase = .busy
  · cases hf : fetch s with
    | none => exact ⟨s, by simp [sequencerTurn, hb, hf]⟩
    | some w =>
      obtain ⟨i, hd, hw, hm, -⟩ := rom_word hf
      rw [sequencerTurn_busy hb hf hd]
      exact exec_micro_of_wf s hw hm
  · exact ⟨s, sequencerTurn_not_busy hb⟩

theorem canStep (s : State) : CanStep s := by
  unfold CanStep
  cases ht : s.turns with
  | nil => exact step_nil ht ▸ sequencerTurn_goes_on s
  | cons x rest =>
    rw [step_cons ht]
    cases x with
    | sequencer => exact sequencerTurn_goes_on _
    | read | write | reset => exact ⟨_, rfl⟩

theorem exists_runs (n : Nat) (s : State) : ∃ t, Runs n s t := by
  induction n generalizing s with
  | zero => exact ⟨s, rfl⟩
  | succ n ih =>
    obtain ⟨s', hstep⟩ := canStep s
    obtain ⟨t, hrun⟩ := ih s'
    exact ⟨t, runs_succ hstep hrun⟩

/-- What every step keeps, every run keeps. -/
theorem runs_keep {P : State → Prop} (kept : ∀ s t, P s → step s = .next t → P t) {n : Nat} {s t : State}
    (hrun : Runs n s t) (hs : P s) : P t := by
  induction n generalizing s with
  | zero => exact Host.Outcome.next.inj hrun ▸ hs
  | succ n ih =>
    obtain ⟨s', hstep⟩ := canStep s
    exact ih ((run_succ n s s' hstep).symm.trans hrun) (kept s s' hs hstep)

/-- What holds at power-on under any turns and is kept by every step holds of every reachable state. -/
theorem reachable_induction {P : State → Prop} (powerOn : ∀ ts, P { State.reset with turns := ts })
    (kept : ∀ s t, P s → step s = .next t → P t) {s : State} (h : Reachable s) : P s := by
  obtain ⟨ts, n, hrun⟩ := h
  exact runs_keep kept hrun (powerOn ts)

theorem phaseInv_of_reachable {s : State} (h : Reachable s) : PhaseInv s :=
  reachable_induction phaseInv_powerOn stepKeepsPhaseInvariant h

/-- Settles O48: every turn goes on, and in a reachable BUSY state `pc` is within the micro-program, whose words all
decode. -/
theorem theMachineNeverStops : Obligations.TheMachineNeverStops := by
  refine ⟨canStep, exists_runs, fun s hreach hb => ?_⟩
  obtain ⟨w, hf⟩ := fetch_of_lt ((phaseInv_of_reachable hreach).busy hb)
  obtain ⟨i, hd, -⟩ := rom_word hf
  exact ⟨w, i, hf, hd⟩

end Sys2Proof.Proofs
